-- ==== Sys2Proof/Word.lean ====
section
/-! DEFINITION. The word types of the part: bytes, 16-bit masks and 24-bit samples (00 "Samples", 11 R197). -/

namespace Sys2Proof

/-- One byte of a frame, a packet or the flash store. -/
abbrev Byte := BitVec 8

/-- Sixteen flags: fire zones 0-15 or zone outputs Z0-Z15, bit n for number n (R197). -/
abbrev Mask16 := BitVec 16

/-- Six flags, one for each zone kind (R197). -/
abbrev KindMask := BitVec 6

/-- A signed 24-bit audio sample (00 "Samples"). -/
abbrev Sample := BitVec 24

/-- A signed 16-bit library sample (R201). -/
abbrev LibSample := BitVec 16

end Sys2Proof
end

