-- ==== Sys2Proof/Config.lean ====
section
/-! DEFINITION. What one part fixes, and the free values: constants without a body, for what the manual leaves open. -/

namespace Sys2Proof.Config

/-- DESIGN CHOICE (log 8): what a flash byte that nothing has written reads as, the erased value of R166. -/
def unlistedByte : Byte := 0xFF

/-- The bytes of the flash store: 2,048 sectors of 4,096 (R165). -/
def flashBytes : Nat := 2048 * 4096

/-- FREE VALUE (R166, log 9): the bits an abandoned erase or write leaves in byte `index` of its sector or data,
for the `use`-th abandoned operation. -/
opaque abandonedBits (use index : Nat) : Byte

/-- FREE VALUE (log 13): how many of the result bytes of a response longer than a packet's 55 payload bytes are sent. R200
fixes the status and the order of the results, R180 bounds the payload, and no rule says where longer results stop. -/
opaque longCut : List Byte → Nat

end Sys2Proof.Config
end

