-- ==== Sys2Proof/Syntax.lean ====
section
/-! DEFINITION. The commands of the part: one constructor of Instr for each row of spec/opcode_table.json.
A management command's parameters are the values its payload presents, checked by its own meaning. -/

namespace Sys2Proof

/-- The two receive ports (01, opening section). -/
inductive Port where
  | west
  | east
  deriving DecidableEq, Repr

/-- The users of the Slot Controller: talk records 0-7, players 0-1, call records 0-7 (02 section 2.3). -/
inductive User where
  | talk (i : Nat)
  | player (p : Nat)
  | call (r : Nat)
  deriving DecidableEq, Repr

/-- The three tone generators: one for each alarm channel, and the call-tone generator (R108). -/
inductive Gen where
  | channel (a : Nat)
  | callTone
  deriving DecidableEq, Repr

/-- The input pins as they stand (00 "Scope"): straps, contacts, SIGLOCK and the local input lanes 0-7. -/
structure Pins where
  /-- The address strap's reading, 0-255. -/
  address : Nat
  /-- FMSTR asserted. -/
  fmstr : Bool
  /-- CONTACT0 stands HIGH. -/
  contact0 : Bool
  /-- CONTACT1 stands HIGH. -/
  contact1 : Bool
  /-- SIGLOCK asserted. -/
  siglock : Bool
  /-- One sample of each local input lane 0-7. -/
  lanes : List Sample
  deriving DecidableEq, Repr

/-- Who sent a management command: the packet's source address and tag (R180). -/
structure Req where
  src : Nat
  tag : Nat
  deriving DecidableEq, Repr

/-- A target as a request presents it (R47, R48, R200). -/
inductive Target where
  | list (zones : List Nat)
  | selector (fireZones : Mask16) (kinds : Byte)
  deriving DecidableEq, Repr

/-- The parameters of PLAY (R150, R200). Player 2 stands for ANY. -/
structure PlayArgs where
  player : Nat
  message : Nat
  cls : Nat
  gain : Int
  ringOut : Bool
  wait : Bool
  target : Option Target
  passes : Nat
  gapMs : Nat
  cookie : Nat
  deriving DecidableEq, Repr

/-- The bytes a receiver took in one frame time: 338 bytes that begin with a start word, or nothing (R198). -/
abbrev Rx := List Byte

/-- The commands, one constructor for each row of spec/opcode_table.json, in its order. -/
inductive Instr where
  | readPorts (who : Req)
  | setRingParameters (who : Req) (threshold hold orphan : Nat)
  | send (who : Req) (input cls : Nat)
  | unsend (who : Req) (input : Nat)
  | readSlots (who : Req) (view first count : Nat)
  | writeZone (who : Req) (zone logical fireZone kind : Nat) (floor : Int)
  | setVolume (who : Req) (logical : Nat) (level : Int)
  | readZone (who : Req) (zone : Nat)
  | bind (who : Req) (kind index cls : Nat) (gain : Int) (autoEnd : Bool) (cookie : Nat) (target : Target)
  | unbind (who : Req) (id : Nat)
  | readBinding (who : Req) (id : Nat)
  | writeClass (who : Req) (cls equal : Nat) (duck : Int) (volume : Nat) (kinds : Byte) (limit : Nat)
  | readClass (who : Req) (cls : Nat)
  | readStack (who : Req) (zone : Nat)
  | setAlarm (who : Req) (code : Nat) (fireZones : Mask16)
  | readAlarm (who : Req)
  | writeStation (who : Req) (station number mic speaker : Nat) (auto : Bool)
  | call (who : Req) (station number : Nat) (priority : Bool)
  | answer (who : Req) (id : Nat)
  | hangup (who : Req) (id : Nat)
  | readCalls (who : Req) (view first count : Nat)
  | play (who : Req) (args : PlayArgs)
  | stop (who : Req) (player : Nat)
  | readPlayers (who : Req)
  | erase (who : Req) (sector : Nat)
  | writeData (who : Req) (sector offset : Nat) (data : List Byte)
  | readData (who : Req) (sector offset count : Nat)
  | saveConfig (who : Req)
  | reloadSignals (who : Req)
  | identify (who : Req)
  | readStatus (who : Req)
  | setNoticeDestination (who : Req) (address : Nat)
  | setGroups (who : Req) (mask : Mask16)
  | setOutput (who : Req) (output source : Nat) (invert : Bool) (zones : Mask16) (kinds : Byte) (param : Nat)
  | restart (who : Req)
  | powerOn (pins : Pins)
  | resetNAssert
  | resetNRelease
  | restartTimeout
  | configImageLoad
  | leaveStarting
  | frameTime (pins : Pins)
  | portFrameTime (west east : Option Rx)
  | portSilentTimeout (port : Port)
  | portLock (port : Port) (rx : Rx)
  | portDegrade (port : Port) (rx : Rx)
  | errorWindowEnd (port : Port) (rx : Rx)
  | portQualified (port : Port) (rx : Rx)
  | processFrame
  | returnedFrame
  | masterResume
  | orphanReclaim (slot : Nat)
  | claimTimeout (user : User)
  | releaseOwedExpiry (slot : Nat)
  | layerFadeEnd (zone binding : Nat)
  | autoEnd (id : Nat)
  | volumeStep (zone : Nat)
  | duckLiftStep (zone binding : Nat)
  | contactDebounce (contact : Nat)
  | generatorStepEnd (gen : Gen)
  | alarmPeriodEnd (channel : Nat)
  | voiceEnd
  | offer
  | ringing
  | answered
  | reject
  | clear
  | offerTimeout (rec : Nat)
  | alertingTimeout (rec : Nat)
  | ringingTimeout (rec : Nat)
  | pathLost (rec : Nat)
  | sendListHandoff
  | waitGateOpen (player : Nat)
  | jobTimeout (player : Nat)
  | passEnd (player : Nat)
  | gapEnd (player : Nat)
  | flashPhaseComplete
  | siglockAssert
  | takeCommand
  deriving DecidableEq, Repr

end Sys2Proof
end

