-- ==== Sys2Proof/WellFormed.lean ====
section
/-! DEFINITION. Which commands a sender can spell: operands that fit their payload fields (R197, R200), pins with eight
lanes, receptions of a whole frame, and event rows that name an object the part has. -/

namespace Sys2Proof

/-- Address and tag are bytes of a packet header (R180). -/
def Req.wf (r : Req) : Bool := r.src < 256 && r.tag < 256

/-- A value of a one-byte payload field. -/
def fitsByte (n : Nat) : Bool := n < 256

/-- A value of a two-byte payload field. -/
def fitsWord (n : Nat) : Bool := n < 65536

/-- A level code occupies a signed 16-bit field (R197). -/
def fitsLevel (l : Int) : Bool := -32768 ≤ l && l < 32768

/-- A target that fits `room` bytes of a payload: a form and a count, then two bytes for each logical zone (R180, R200). -/
def Target.wf (room : Nat) : Target → Bool
  | .list zones => 2 + 2 * zones.length ≤ room && zones.all fitsWord
  | .selector _ _ => true

/-- PLAY's parameters fit the fields of R200. -/
def PlayArgs.wf (a : PlayArgs) : Bool :=
  fitsByte a.player && fitsByte a.message && fitsByte a.cls && fitsLevel a.gain && fitsByte a.passes &&
    fitsWord a.gapMs && fitsWord a.cookie && (a.target.map (Target.wf 44)).getD true

/-- The address strap reads 0-255 and there are eight local input lanes (00 "Scope"). -/
def Pins.wf (p : Pins) : Bool := p.address < 256 && p.lanes.length == 8

/-- A receiver's frame time brings the 338 bytes of a frame or nothing (R198). -/
def Rx.wf (rx : Rx) : Bool := rx.isEmpty || rx.length == 338

/-- A user of the Slot Controller that exists (02 section 2.3). -/
def User.wf : User → Bool
  | .talk i => i < 8
  | .player p => p < 2
  | .call r => r < 8

/-- A tone generator that exists (R108). -/
def Gen.wf : Gen → Bool
  | .channel a => a < 2
  | .callTone => true

/-- Whether every operand of the command fits its place. -/
def Instr.wf : Instr → Bool
  | .readPorts who => who.wf
  | .setRingParameters who threshold hold orphan => who.wf && fitsByte threshold && hold < 4294967296 && fitsWord orphan
  | .send who input cls => who.wf && fitsByte input && fitsByte cls
  | .unsend who input => who.wf && fitsByte input
  | .readSlots who view first count => who.wf && fitsByte view && fitsByte first && fitsByte count
  | .writeZone who zone logical fireZone kind floor =>
      who.wf && fitsByte zone && fitsWord logical && fitsByte fireZone && fitsByte kind && fitsLevel floor
  | .setVolume who logical level => who.wf && fitsWord logical && fitsLevel level
  | .readZone who zone => who.wf && fitsByte zone
  | .bind who kind index cls gain _ cookie target =>
      who.wf && fitsByte kind && fitsByte index && fitsByte cls && fitsLevel gain && fitsWord cookie && target.wf 47
  | .unbind who id => who.wf && fitsByte id
  | .readBinding who id => who.wf && fitsByte id
  | .writeClass who cls equal duck volume _ limit =>
      who.wf && fitsByte cls && fitsByte equal && fitsLevel duck && fitsByte volume && fitsByte limit
  | .readClass who cls => who.wf && fitsByte cls
  | .readStack who zone => who.wf && fitsByte zone
  | .setAlarm who code _ => who.wf && fitsByte code
  | .readAlarm who => who.wf
  | .writeStation who station number mic speaker _ =>
      who.wf && fitsByte station && fitsWord number && fitsByte mic && fitsByte speaker
  | .call who station number _ => who.wf && fitsByte station && fitsWord number
  | .answer who id => who.wf && fitsByte id
  | .hangup who id => who.wf && fitsByte id
  | .readCalls who view first count => who.wf && fitsByte view && fitsByte first && fitsByte count
  | .play who args => who.wf && args.wf
  | .stop who player => who.wf && fitsByte player
  | .readPlayers who => who.wf
  | .erase who sector => who.wf && fitsWord sector
  | .writeData who sector offset data => who.wf && fitsWord sector && fitsWord offset && data.length ≤ 51
  | .readData who sector offset count => who.wf && fitsWord sector && fitsWord offset && fitsByte count
  | .saveConfig who => who.wf
  | .reloadSignals who => who.wf
  | .identify who => who.wf
  | .readStatus who => who.wf
  | .setNoticeDestination who address => who.wf && fitsByte address
  | .setGroups who _ => who.wf
  | .setOutput who output source _ _ _ param => who.wf && fitsByte output && fitsByte source && fitsByte param
  | .restart who => who.wf
  | .powerOn pins => pins.wf
  | .resetNAssert => true
  | .resetNRelease => true
  | .restartTimeout => true
  | .configImageLoad => true
  | .leaveStarting => true
  | .frameTime pins => pins.wf
  | .portFrameTime west east => (west.map Rx.wf).getD true && (east.map Rx.wf).getD true
  | .portSilentTimeout _ => true
  | .portLock _ rx => rx.wf
  | .portDegrade _ rx => rx.wf
  | .errorWindowEnd _ rx => rx.wf
  | .portQualified _ rx => rx.wf
  | .processFrame => true
  | .returnedFrame => true
  | .masterResume => true
  | .orphanReclaim slot => slot < 64
  | .claimTimeout user => user.wf
  | .releaseOwedExpiry slot => slot < 64
  | .layerFadeEnd zone binding => zone < 16 && binding < 64
  | .autoEnd id => id < 64
  | .volumeStep zone => zone < 16
  | .duckLiftStep zone binding => zone < 16 && binding < 64
  | .contactDebounce contact => contact < 2
  | .generatorStepEnd gen => gen.wf
  | .alarmPeriodEnd channel => channel < 2
  | .voiceEnd => true
  | .offer => true
  | .ringing => true
  | .answered => true
  | .reject => true
  | .clear => true
  | .offerTimeout rec => rec < 8
  | .alertingTimeout rec => rec < 8
  | .ringingTimeout rec => rec < 8
  | .pathLost rec => rec < 8
  | .sendListHandoff => true
  | .waitGateOpen player => player < 2
  | .jobTimeout player => player < 2
  | .passEnd player => player < 2
  | .gapEnd player => player < 2
  | .flashPhaseComplete => true
  | .siglockAssert => true
  | .takeCommand => true

end Sys2Proof
end

