-- ==== Sys2Proof/Machine/State.lean ====
section
/-! DEFINITION. The state of the part, block by block as 00 "Block overview" lists them, its reset values, and the
reasons a step can stop. Every field is plain data. -/

namespace Sys2Proof.Machine

/-! ## Why a step can stop -/

/-- The part never stops: the manual gives every command and event an effect, so no meaning raises a fault and this
type has no constructor. -/
inductive Fault where
  deriving DecidableEq, Repr

/-- Why a command has no meaning in the model. -/
inductive Refusal where
  /-- Raised by an arm of exec whose command has not been given its meaning yet. Safe: nothing is claimed of it. -/
  | notModelled (mnemonic : String)
  deriving DecidableEq, Repr

/-! ## Ring Interface (01) -/

/-- The five bytes of one slot of a frame (R198), reserved bits included. -/
structure SlotField where
  owner : Byte
  /-- Bits 2-0 class, bit 3 stamped, bit 4 fresh. -/
  flags : Byte
  sample : Sample
  deriving DecidableEq, Repr

/-- A frame that began with a valid start word: its other 336 bytes, field by field (R198). -/
structure Frame where
  seq : Byte
  master : Byte
  /-- Bit 0 damaged, bit 1 turn. -/
  marks : Byte
  /-- Bit 7 set flag, bits 3-0 code. -/
  alarm : Byte
  fireZones : Mask16
  issuer : Byte
  slots : List SlotField
  lane : List Byte
  check : Byte
  deriving DecidableEq, Repr

/-- What a receiver holds of its present frame time. -/
inductive Arrival where
  /-- No frame arrived. -/
  | none
  /-- A frame arrived and has not been processed. -/
  | frame (f : Frame)
  /-- The frame that arrived has been processed; `held`: its frame time is a held one (R10, R138). -/
  | taken (held : Bool)
  deriving DecidableEq, Repr

/-- Receive-port states (R4). -/
inductive PortState where
  | noSignal
  | acquiring
  | locked
  | degraded
  deriving DecidableEq, Repr

/-- A receive-port record (R4). -/
structure PortRecord where
  state : PortState
  silent : Nat
  expected : Option Nat
  run : Nat
  windowPos : Nat
  windowErrors : Nat
  totalErrors : Nat
  lockLosses : Nat
  lockedRun : Nat
  usedSinceReset : Bool
  inUse : Bool
  deriving DecidableEq, Repr

/-- Wrap states (R13). -/
inductive WrapState where
  | through
  | wrapWest
  | wrapEast
  | isolated
  deriving DecidableEq, Repr

/-- What feeds a transmitter (R14). A frame a master generates or repeats comes from another source than a slave's, so that
a yield and a resumption change the source (R20); a master's marked and unmarked frames are two sources (log 47). -/
inductive TxSource where
  | silent
  | processed (primary : Port)
  /-- A slave's repeated frames from its east receiver. -/
  | repeatEast
  /-- The same frames in a master's turn-repeat mode (R18). -/
  | turnRepeat
  /-- A slave's own frames in ISOLATED (R16). -/
  | isolated
  /-- A master's frames (R17), in feed mode and in ISOLATED. -/
  | generated
  /-- A master's frames with the turn mark set, on its west transmitter in WRAP_EAST (R14). -/
  | generatedTurned
  deriving DecidableEq, Repr

/-- A transmitter (R15). -/
structure Tx where
  source : TxSource
  /-- The last sequence number sent; absent when it was silent or has sent nothing since reset. -/
  lastSeq : Option Nat
  /-- The master address of the last frame sent. -/
  lastMaster : Byte
  delay : Nat
  /-- The alignment store: one entry for each frame time not yet sent, absent where a fill frame is due. -/
  store : List (Option Frame)
  /-- The frame sent in the last frame time, if any. -/
  out : Option Frame
  deriving DecidableEq, Repr

/-- A run of returned frames that is filling the relay store (R19). -/
structure RelayRun where
  window : Nat
  bytes : List Byte
  /-- The master emptied this window on its return (R184). -/
  emptied : Bool
  deriving DecidableEq, Repr

/-- The master's relay store (R19): the run being filled, and the complete, unconsumed window (log 18). -/
structure RelayStore where
  run : Option RelayRun
  complete : Option RelayRun
  deriving DecidableEq, Repr

/-- The window that the master is generating: its 64 bytes, and whether the node's own packet is in it (R182, R184). -/
structure GenWindow where
  bytes : List Byte
  inserting : Bool
  deriving DecidableEq, Repr

/-- The Ring Interface. -/
structure Ring where
  counter : Nat
  west : PortRecord
  east : PortRecord
  westIn : Arrival
  eastIn : Arrival
  wrap : WrapState
  role : Bool
  quiet : Nat
  turnRepeat : Bool
  lastGood : List Sample
  txEast : Tx
  txWest : Tx
  relay : RelayStore
  genWindow : GenWindow
  threshold : Nat
  hold : Nat
  orphanLimit : Nat
  deriving DecidableEq, Repr

/-! ## Slot Controller (02) -/

/-- States of a local slot table entry (R30). -/
inductive SlotState where
  | idle
  | claiming
  | held
  deriving DecidableEq, Repr

/-- A claim (R30). `order` is its request number, which keeps its old place in the pending list (R32). -/
structure Claim where
  user : User
  cls : Nat
  attempts : Nat
  age : Nat
  order : Nat
  deriving DecidableEq, Repr

/-- A local slot table entry (R30); `owed` is the release owed countdown, 0 when clear. -/
structure SlotEntry where
  state : SlotState
  claim : Option Claim
  owed : Nat
  deriving DecidableEq, Repr

/-- A master slot register entry (R26). -/
structure RegEntry where
  owner : Nat
  cls : Nat
  orphan : Nat
  deriving DecidableEq, Repr

/-- Talk record states (R39). -/
inductive TalkState where
  | closed
  | claiming
  | sending
  deriving DecidableEq, Repr

/-- How a talk record last ended (R39). -/
inductive TalkEnd where
  | none
  | unsent
  | lost
  | noSlot
  | reset
  deriving DecidableEq, Repr

/-- A talk record (R39). -/
structure TalkRecord where
  state : TalkState
  cls : Nat
  requester : Req
  slot : Option Nat
  lastEnd : TalkEnd
  deriving DecidableEq, Repr

/-- The Slot Controller. -/
structure SlotCtl where
  table : List SlotEntry
  waiting : List Claim
  nextOrder : Nat
  register : List RegEntry
  talks : List TalkRecord
  deriving DecidableEq, Repr

/-! ## Zone Mixer (03, 04, 05) -/

/-- Zone kinds, numbered 0-5 in this order (R197). -/
inductive ZoneKind where
  | cabin
  | corridor
  | publicRoom
  | theatre
  | crew
  | exterior
  deriving DecidableEq, Repr

/-- A zone record's fire zone: 0-15, or ALL (R43). -/
inductive FireZone where
  | one (f : Nat)
  | all
  deriving DecidableEq, Repr

/-- Layer states (R67). -/
inductive LayerState where
  | active
  | held
  | releasing
  deriving DecidableEq, Repr

/-- A layer (R67) with its duck count (R83). `fresh`: an event of the coming zone computation set its fade starting
point, so that computation takes no fade step (R84). `silent`: it was popped while HELD, and contributes nothing while it
fades (R55). -/
structure Layer where
  binding : Nat
  cls : Nat
  state : LayerState
  fade : Int
  duck : Int
  target : Int
  duckCount : Nat
  fresh : Bool
  silent : Bool
  deriving DecidableEq, Repr

/-- A zone record (R43) with its volume count (R82) and the sample on its output lane (R94). Stacks are top first. -/
structure Zone where
  logical : Nat
  fireZone : FireZone
  kind : ZoneKind
  volTarget : Int
  vol : Int
  volCount : Nat
  floor : Int
  clips : Nat
  stack : List Layer
  out : Sample
  deriving DecidableEq, Repr

/-- Sources of a binding (R49). -/
inductive Source where
  | ring (slot : Nat)
  | input (lane : Nat)
  | player (p : Nat)
  | alarm (channel : Nat)
  | callTone
  deriving DecidableEq, Repr

/-- Owners of a binding (R49). -/
inductive Owner where
  | remote (address cookie : Nat)
  | channel (a : Nat)
  | player (p : Nat)
  | call (r : Nat)
  deriving DecidableEq, Repr

/-- The reason for which a binding's end was begun, or with which it ends (R49, R52). -/
inductive Ending where
  | none
  | unbound
  | autoEnd
  | evicted
  | restart
  deriving DecidableEq, Repr

/-- The record of a LIVE binding (R49). -/
structure Binding where
  source : Source
  cls : Nat
  gain : Int
  autoEnd : Bool
  freeRun : Nat
  owner : Owner
  zones : Mask16
  ending : Ending
  deriving DecidableEq, Repr

/-- Equal rules (R61). -/
inductive EqualRule where
  | mix
  | queue
  deriving DecidableEq, Repr

/-- Volume rules (R61). -/
inductive VolumeRule where
  | zone
  | floor
  | fixed
  deriving DecidableEq, Repr

/-- A class record (R61). MUTE is held as -385 (R80). -/
structure ClassRecord where
  equal : EqualRule
  duck : Int
  volume : VolumeRule
  kinds : KindMask
  limit : Nat
  deriving DecidableEq, Repr

/-- The Zone Mixer. A binding table entry is absent when FREE. -/
structure Mixer where
  zones : List Zone
  bindings : List (Option Binding)
  classes : List ClassRecord
  deriving DecidableEq, Repr

/-! ## Alarm Engine (06) -/

/-- An alarm word (R97). -/
structure AlarmWord where
  set : Bool
  code : Nat
  mask : Mask16
  issuer : Nat
  deriving DecidableEq, Repr

/-- Where an alarm claim or a change event comes from (R100, R103). -/
inductive AlarmFrom where
  | none
  | ring
  | c0
  | c1
  deriving DecidableEq, Repr

/-- A contact record (R98). -/
structure Contact where
  enabled : Bool
  activeHigh : Bool
  code : Nat
  mask : Mask16
  asserted : Bool
  run : Nat
  stamp : Nat
  deriving DecidableEq, Repr

/-- An entry of the change record (R100). -/
structure ChangeEntry where
  source : AlarmFrom
  code : Nat
  mask : Mask16
  issuer : Nat
  stamp : Nat
  deriving DecidableEq, Repr

/-- An entry of the fire-zone alarm table (R103). -/
structure FireEntry where
  code : Nat
  source : AlarmFrom
  deriving DecidableEq, Repr

/-- An entry of the code map (R105): signal absent for NO_SIGNAL, message absent for none, period in seconds. -/
structure CodeEntry where
  signal : Option Nat
  message : Option Nat
  period : Nat
  deriving DecidableEq, Repr

/-- A step of a signal (R106): Hz, level code, milliseconds. -/
structure SignalStep where
  hz : Nat
  level : Int
  ms : Nat
  deriving DecidableEq, Repr

/-- A signal record (R106); the loop start is absent for ONCE. -/
structure Signal where
  steps : List SignalStep
  loop : Option Nat
  deriving DecidableEq, Repr

/-- Generator states (R108). -/
inductive GenState where
  | idle
  | running
  | paused
  | ended
  deriving DecidableEq, Repr

/-- A tone generator (R108) with its output sample of the last frame time. -/
structure Generator where
  state : GenState
  signal : Nat
  step : Nat
  timer : Nat
  phase : BitVec 24
  out : Sample
  deriving DecidableEq, Repr

/-- Alarm channel phases (R111). -/
inductive ChannelPhase where
  | idle
  | signal
  | voice
  | draining
  deriving DecidableEq, Repr

/-- An alarm channel (R111) with its output sample of the last frame time. -/
structure Channel where
  phase : ChannelPhase
  signal : Option Nat
  code : Nat
  timer : Nat
  gen : Generator
  out : Sample
  deriving DecidableEq, Repr

/-- The Alarm Engine. -/
structure Alarm where
  /-- The master alarm source (R95): SET or NOT_SET, code, mask and issuer. -/
  source : AlarmWord
  authority : List Nat
  candidate : AlarmWord
  confirmed : AlarmWord
  contacts : List Contact
  firstUnread : Option ChangeEntry
  latest : Option ChangeEntry
  unread : Nat
  table : List FireEntry
  codeMap : List CodeEntry
  signals : List Signal
  channels : List Channel
  callGen : Generator
  deriving DecidableEq, Repr

/-! ## Lane Controller (10) -/

/-- A packet (R180). -/
structure Packet where
  dest : Nat
  src : Nat
  kind : Nat
  tag : Nat
  payload : List Byte
  deriving DecidableEq, Repr

/-- What a node does with the window it follows (R181-R184). -/
inductive WindowJob where
  /-- Sends its bytes on. -/
  | pass
  /-- Tests it for reception. -/
  | receive
  /-- Strips its own packet. -/
  | strip
  /-- The master empties a FULL_SEEN window of another source. -/
  | discard
  /-- Writes these 64 bytes over it. -/
  | insert (bytes : List Byte)
  deriving DecidableEq, Repr

/-- The window a node follows (R179): its number, the position due next, its bytes as they arrived, whether none of its
frame times was held or out of sequence, and what the node does with it. -/
structure Follow where
  window : Nat
  next : Nat
  bytes : List Byte
  whole : Bool
  job : WindowJob
  deriving DecidableEq, Repr

/-- The Lane Controller. -/
structure Lane where
  inbound : List Packet
  outbound : List Packet
  reservations : Nat
  groups : BitVec 15
  noticeDest : Nat
  noticeLost : Bool
  noticeCount : Nat
  refused : Nat
  follow : Option Follow
  deriving DecidableEq, Repr

/-! ## Call Controller (07) -/

/-- A station record (R123). -/
structure Station where
  number : Nat
  mic : Nat
  speaker : Nat
  auto : Bool
  deriving DecidableEq, Repr

/-- Call record states (R125). -/
inductive CallState where
  | idle
  | claiming
  | offering
  | alerting
  | ringing
  | connected
  deriving DecidableEq, Repr

/-- Call record roles (R125); absent after reset. -/
inductive Role where
  | absent
  | caller
  | callee
  deriving DecidableEq, Repr

/-- Reasons of REJECT and CLEAR and clear reasons (07 section 7.3), numbered 1-12 in this order (R200). -/
inductive Reason where
  | hangup
  | noAnswer
  | notFound
  | noSlot
  | noRoute
  | pathLost
  | duplicate
  | evicted
  | capacity
  | busy
  | alarm
  | gone
  deriving DecidableEq, Repr

/-- The side with which a call ended (R125). -/
inductive Side where
  | here
  | remote
  deriving DecidableEq, Repr

/-- The packet of a CALLEE whose delivery outcome is awaited (R125). -/
inductive Outstanding where
  | none
  | ringing
  | answered
  deriving DecidableEq, Repr

/-- A call record (R125). `pathBefore` is the path count with which the present frame time began, and `changed` says that the
record's state has changed in it, so that the count stays (R138). -/
structure CallRecord where
  state : CallState
  role : Role
  serial : Nat
  station : Nat
  number : Nat
  cls : Nat
  remote : Option Nat
  remoteId : Option Nat
  talk : Option Nat
  listen : Option Nat
  tone : Option Nat
  listenBinding : Option Nat
  timer : Nat
  path : Nat
  pathBefore : Nat
  changed : Bool
  resends : Nat
  outstanding : Outstanding
  answerPending : Bool
  firstReject : Option Reason
  clearReason : Option Reason
  clearSide : Option Side
  deriving DecidableEq, Repr

/-- The call a tied packet belongs to: its record, its call id, and whether it is the closing CLEAR or REJECT (R127). -/
structure Tie where
  record : Nat
  callId : Nat
  closing : Bool
  deriving DecidableEq, Repr

/-- An entry of the send list (R127); no tie means untied. -/
structure SendEntry where
  packet : Packet
  tie : Option Tie
  deriving DecidableEq, Repr

/-- The Call Controller. -/
structure Calls where
  stations : List Station
  records : List CallRecord
  sendList : List SendEntry
  deriving DecidableEq, Repr

/-! ## Player Unit (08) -/

/-- Job states (R149). -/
inductive JobState where
  | idle
  | waiting
  | claiming
  | playing
  | gap
  | stopping
  deriving DecidableEq, Repr

/-- A job's claim (R149). -/
inductive JobClaim where
  | none
  | requested
  | held
  deriving DecidableEq, Repr

/-- The frame of a pair (R149). -/
inductive Half where
  | first
  | second
  deriving DecidableEq, Repr

/-- End reasons of a job (R149). -/
inductive JobEnd where
  | complete
  | stopped
  | evicted
  | preempted
  | timeout
  | noSlot
  | restart
  deriving DecidableEq, Repr

/-- A job record (R149). The gap is in frame times; the target is the set of zones the binding was pushed into. -/
structure Job where
  state : JobState
  message : Nat
  start : Nat
  length : Nat
  cls : Nat
  gain : Int
  trim : Int
  target : Option Mask16
  ringOut : Bool
  passes : Nat
  passCount : Nat
  gap : Nat
  wait : Bool
  requester : Nat
  cookie : Nat
  binding : Option Nat
  talk : Option Nat
  claim : JobClaim
  position : Nat
  half : Half
  timer : Nat
  underruns : Nat
  endReason : Option JobEnd
  lastEnd : Option JobEnd
  deriving DecidableEq, Repr

/-- P1's voice service (R162): the extent and trim the Alarm Engine read, and the place in the message. -/
structure Voice where
  start : Nat
  length : Nat
  trim : Int
  position : Nat
  half : Half
  deriving DecidableEq, Repr

/-- A player (R149): its job record, prefetch queue and read stream, its voice service (P1 alone), whether the present
pair is an underrun pair (R154), whether a pass ended in this frame time (log 3), and its output sample. -/
structure Player where
  job : Job
  queue : List LibSample
  streamOpen : Bool
  streamNext : Nat
  voice : Option Voice
  underrunPair : Bool
  passDone : Bool
  out : Sample
  deriving DecidableEq, Repr

/-- A PLAY or STOP waiting on a catalog read (R148). -/
inductive PlayWait where
  | play (who : Req) (args : PlayArgs)
  | stop (who : Req) (player : Nat)
  deriving DecidableEq, Repr

/-- The Player Unit. -/
structure Players where
  players : List Player
  waits : List PlayWait
  deriving DecidableEq, Repr

/-! ## Library Controller (09) -/

/-- Kinds of flash operation (R168). -/
inductive FlashKind where
  | erase
  | write
  | save
  | reload
  deriving DecidableEq, Repr

/-- Phases of a flash operation (R168). DONE is never seen: an operation leaves the queue in the event it is done. -/
inductive FlashPhase where
  | waiting
  | erasing
  | writing
  deriving DecidableEq, Repr

/-- A flash operation (R168). The data of a SAVE CONFIG is its captured image (R176). -/
structure FlashOp where
  kind : FlashKind
  sector : Nat
  offset : Nat
  data : List Byte
  phase : FlashPhase
  timer : Nat
  who : Req
  deriving DecidableEq, Repr

/-- A READ DATA waiting on its bank (R171). -/
structure ReadWait where
  who : Req
  sector : Nat
  offset : Nat
  count : Nat
  deriving DecidableEq, Repr

/-- The Library Controller. The flash store is in canonical form (Memory.wf). -/
structure Library where
  flash : List Host.Cell
  ops : List FlashOp
  readWaits : List ReadWait
  signalTaken : Bool
  configTaken : Bool
  deriving DecidableEq, Repr

/-! ## Management Responder (10) -/

/-- Node states (R196). -/
inductive NodeState where
  | starting
  | running
  | noAddress
  deriving DecidableEq, Repr

/-- Reset causes (R195). -/
inductive ResetCause where
  | power
  | pin
  | command
  deriving DecidableEq, Repr

/-- Sources of a status output, numbered 0-6 in this order (R191, R201). -/
inductive OutSource where
  | fixed
  | ringOk
  | ringAny
  | alarmAny
  | zoneClass
  | callRinging
  | contactEcho
  deriving DecidableEq, Repr

/-- The selection of a status output (R191); `param` is the class or the contact number. -/
structure Selection where
  source : OutSource
  invert : Bool
  zones : Mask16
  kinds : KindMask
  param : Nat
  deriving DecidableEq, Repr

/-- The Management Responder and the start-up sequence. -/
structure Mgmt where
  node : NodeState
  /-- The address strap as read at frame time 0 (R196). -/
  address : Nat
  /-- The FMSTR strap as read at frame time 0 (R196). -/
  fmstr : Bool
  cause : ResetCause
  /-- The config image has been read since the reset (R196, frame time 1). -/
  configRead : Bool
  /-- RESET_N is held asserted (R195). -/
  held : Bool
  /-- Frame times since a RESTART was taken, absent when none was (R195). -/
  restart : Option Nat
  outputs : List Selection
  /-- Whether each status output is driven active. -/
  driven : List Bool
  deriving DecidableEq, Repr

/-! ## The whole part -/

/-- A count of the coming frame time that an event row has already taken (log 3). -/
inductive Share where
  | volume (zone : Nat)
  | duck (zone binding : Nat)
  | generator (gen : Gen)
  | period (channel : Nat)
  | player (p : Nat)
  | flash (bank : Nat)
  /-- The flash queue's head started its phase: the coming frame time is not counted in it, and its bank is not yet busy. -/
  | headStart
  deriving DecidableEq, Repr

/-- Everything the part holds. -/
structure Node where
  ring : Ring
  slots : SlotCtl
  mixer : Mixer
  alarm : Alarm
  calls : Calls
  players : Players
  library : Library
  lane : Lane
  mgmt : Mgmt
  pins : Pins
  early : List Share
  freeCount : Nat
  deriving DecidableEq, Repr

/-- The part and the commands waiting for it, first in, first out. -/
structure State where
  node : Node
  pending : List Instr
  deriving DecidableEq, Repr

/-! ## Reset values -/

/-- R4. -/
def PortRecord.reset : PortRecord where
  state := .noSignal
  silent := 0
  expected := none
  run := 0
  windowPos := 0
  windowErrors := 0
  totalErrors := 0
  lockLosses := 0
  lockedRun := 0
  usedSinceReset := false
  inUse := false

/-- R15; the source, last master address and link frame are log 14. -/
def Tx.reset : Tx where
  source := .silent
  lastSeq := none
  lastMaster := 0
  delay := 0
  store := []
  out := none

/-- R3, R4, R11, R13, R15, R18, R19, R20, R21. -/
def Ring.reset : Ring where
  counter := 0
  west := .reset
  east := .reset
  westIn := .none
  eastIn := .none
  wrap := .isolated
  role := false
  quiet := 48000
  turnRepeat := false
  lastGood := List.replicate 64 0
  txEast := .reset
  txWest := .reset
  relay := { run := none, complete := none }
  genWindow := { bytes := List.replicate 64 0, inserting := false }
  threshold := 24
  hold := 96000
  orphanLimit := 480

/-- R30. -/
def SlotEntry.reset : SlotEntry := { state := .idle, claim := none, owed := 0 }

/-- R26. -/
def RegEntry.reset : RegEntry := { owner := 0, cls := 0, orphan := 0 }

/-- R39. -/
def TalkRecord.reset : TalkRecord where
  state := .closed
  cls := 0
  requester := { src := 0, tag := 0 }
  slot := none
  lastEnd := .reset

/-- R26, R30, R39. -/
def SlotCtl.reset : SlotCtl where
  table := List.replicate 64 .reset
  waiting := []
  nextOrder := 0
  register := List.replicate 64 .reset
  talks := List.replicate 8 .reset

/-- The defaults of R43. -/
def Zone.reset : Zone where
  logical := 0
  fireZone := .all
  kind := .publicRoom
  volTarget := 0
  vol := 0
  volCount := 0
  floor := -24
  clips := 0
  stack := []
  out := 0

/-- MUTE as a duck value (R80). -/
def mute : Int := -385

/-- The lowest level code of a fade (R67). -/
def fadeBottom : Int := -384

/-- The defaults of R62, classes 0-7. -/
def defaultClasses : List ClassRecord := [
  { equal := .mix, duck := 0, volume := .zone, kinds := 0b100111, limit := 6 },
  { equal := .mix, duck := -16, volume := .zone, kinds := 0b001100, limit := 6 },
  { equal := .queue, duck := -40, volume := .zone, kinds := 0b111111, limit := 6 },
  { equal := .queue, duck := -40, volume := .zone, kinds := 0b111111, limit := 6 },
  { equal := .mix, duck := -64, volume := .zone, kinds := 0b111111, limit := 6 },
  { equal := .queue, duck := mute, volume := .floor, kinds := 0b010010, limit := 6 },
  { equal := .mix, duck := mute, volume := .floor, kinds := 0b111111, limit := 1 },
  { equal := .queue, duck := mute, volume := .floor, kinds := 0b111111, limit := 2 }]

/-- R43, R49, R62. -/
def Mixer.reset : Mixer where
  zones := List.replicate 16 .reset
  bindings := List.replicate 64 none
  classes := defaultClasses

/-- The word NONE (R97), which is also the NOT_SET source (R95). -/
def AlarmWord.none : AlarmWord := { set := false, code := 0, mask := 0, issuer := 0 }

/-- R98, when the signal sector is not taken. -/
def Contact.reset : Contact where
  enabled := false
  activeHigh := false
  code := 0
  mask := 0
  asserted := false
  run := 0
  stamp := 0

/-- A code map entry with a signal and no message (R105). -/
def CodeEntry.plain (signal : Option Nat) : CodeEntry := { signal := signal, message := none, period := 30 }

/-- The defaults of R105. The period of entry 0, which R105 leaves open, is never read (log 14). -/
def defaultCodeMap : List CodeEntry :=
  [.plain none, .plain (some 0), .plain (some 1), .plain (some 2), .plain (some 3), .plain (some 4), .plain (some 0),
    .plain (some 5)] ++ List.replicate 8 (.plain (some 0))

/-- The fallback signal (R106). -/
def fallbackSignal : Signal := { steps := [⟨1000, 0, 500⟩, ⟨0, 0, 500⟩], loop := some 0 }

/-- The built-in signals (R107); the level of a silent step is 0 (log 68). -/
def builtInSignals : List Signal := [
  { steps := (List.replicate 7 [⟨800, 0, 1000⟩, ⟨0, 0, 1000⟩]).flatten ++ [⟨800, 0, 6000⟩, ⟨0, 0, 2000⟩], loop := some 0 },
  { steps := [⟨1000, 0, 500⟩, ⟨600, 0, 500⟩], loop := some 0 },
  { steps := [⟨900, 0, 250⟩, ⟨0, 0, 250⟩], loop := some 0 },
  { steps := [⟨700, 0, 2000⟩, ⟨0, 0, 2000⟩], loop := some 0 },
  { steps := [⟨1200, -8, 200⟩, ⟨0, 0, 200⟩, ⟨1200, -8, 200⟩, ⟨0, 0, 1400⟩], loop := some 0 },
  { steps := [⟨660, -8, 400⟩, ⟨880, -8, 400⟩, ⟨1320, -8, 800⟩], loop := none },
  fallbackSignal,
  { steps := [⟨480, -16, 400⟩, ⟨0, 0, 200⟩, ⟨480, -16, 400⟩, ⟨0, 0, 2000⟩], loop := some 0 }]

/-- R108. -/
def Generator.reset : Generator where
  state := .idle
  signal := 0
  step := 0
  timer := 0
  phase := 0
  out := 0

/-- R111. -/
def Channel.reset : Channel where
  phase := .idle
  signal := none
  code := 0
  timer := 0
  gen := .reset
  out := 0

/-- R122, with the contents of an untaken signal sector (R174). -/
def Alarm.reset : Alarm where
  source := .none
  authority := [0, 0, 0, 0]
  candidate := .none
  confirmed := .none
  contacts := [.reset, .reset]
  firstUnread := none
  latest := none
  unread := 0
  table := List.replicate 16 { code := 0, source := .none }
  codeMap := defaultCodeMap
  signals := builtInSignals
  channels := [.reset, .reset]
  callGen := .reset

/-- The default of R123 for station `i`. -/
def Station.default (i : Nat) : Station := { number := 0, mic := i, speaker := i, auto := false }

/-- R125. -/
def CallRecord.reset : CallRecord where
  state := .idle
  role := .absent
  serial := 0
  station := 0
  number := 0
  cls := 0
  remote := none
  remoteId := none
  talk := none
  listen := none
  tone := none
  listenBinding := none
  timer := 0
  path := 0
  pathBefore := 0
  changed := false
  resends := 0
  outstanding := .none
  answerPending := false
  firstReject := none
  clearReason := none
  clearSide := none

/-- R123, R125, R127. -/
def Calls.reset : Calls where
  stations := (List.range 8).map Station.default
  records := List.replicate 8 .reset
  sendList := []

/-- R149; half is FIRST (log 14). -/
def Job.reset : Job where
  state := .idle
  message := 0
  start := 0
  length := 0
  cls := 0
  gain := 0
  trim := 0
  target := none
  ringOut := false
  passes := 0
  passCount := 0
  gap := 0
  wait := false
  requester := 0
  cookie := 0
  binding := none
  talk := none
  claim := .none
  position := 0
  half := .first
  timer := 0
  underruns := 0
  endReason := none
  lastEnd := none

/-- R149; the next sample of the closed stream is 0 (log 14). -/
def Player.reset : Player where
  job := .reset
  queue := []
  streamOpen := false
  streamNext := 0
  voice := none
  underrunPair := false
  passDone := false
  out := 0

/-- R148, R149. -/
def Players.reset : Players := { players := [.reset, .reset], waits := [] }

/-- R168, R171; the flash of a part on which nothing was written (log 8). -/
def Library.reset : Library where
  flash := []
  ops := []
  readWaits := []
  signalTaken := false
  configTaken := false

/-- R180, R181, R185, R186, R189, R190. -/
def Lane.reset : Lane where
  inbound := []
  outbound := []
  reservations := 0
  groups := 0
  noticeDest := 0
  noticeLost := false
  noticeCount := 0
  refused := 0
  follow := none

/-- The default selections of R191. -/
def defaultOutputs : List Selection := [
  { source := .ringOk, invert := false, zones := 0, kinds := 0, param := 0 },
  { source := .alarmAny, invert := false, zones := 0, kinds := 0, param := 0 },
  { source := .zoneClass, invert := false, zones := 0xFFFF, kinds := 0b001000, param := 5 },
  { source := .callRinging, invert := false, zones := 0, kinds := 0, param := 0 }]

/-- R191, R195, R196. -/
def Mgmt.reset : Mgmt where
  node := .starting
  address := 0
  fmstr := false
  cause := .power
  configRead := false
  held := false
  restart := none
  outputs := defaultOutputs
  driven := [false, false, false, false]

/-- DESIGN CHOICE (log 10): the pins of State.reset, all zero and released. -/
def restingPins : Pins where
  address := 0
  fmstr := false
  contact0 := false
  contact1 := false
  siglock := false
  lanes := List.replicate 8 0

/-- The part right after reset, its straps reading 0 and its flash never written. -/
def Node.reset : Node where
  ring := .reset
  slots := .reset
  mixer := .reset
  alarm := .reset
  calls := .reset
  players := .reset
  library := .reset
  lane := .reset
  mgmt := .reset
  pins := restingPins
  early := []
  freeCount := 0

/-- The machine right after reset: every field at the value the manual states for it, or the one its log entry names. -/
def State.reset : State := { node := .reset, pending := [] }

end Sys2Proof.Machine
end

