-- ==== Sys2Proof/Machine/Formats.lean ====
section
/-! DEFINITION. Byte layouts and check computations (11): byte order, the two CRCs, the frame, the packet and the
window, and the code numbers that payloads carry. -/

namespace Sys2Proof.Machine

/-! ## Byte order (R197): most significant byte first, two's complement -/

/-- One byte of a payload. -/
def byte (n : Nat) : Byte := BitVec.ofNat 8 n

/-- The low `k` bytes of `n`, most significant first. -/
def bytesOf : Nat → Nat → List Byte
  | 0, _ => []
  | k + 1, n => byte (n / 256 ^ k) :: bytesOf k n

/-- The number that bytes spell, most significant first. -/
def natOf (bs : List Byte) : Nat := bs.foldl (fun n b => n * 256 + b.toNat) 0

/-- The signed number that bytes spell. -/
def intOf (bs : List Byte) : Int :=
  let n := natOf bs
  let full := 256 ^ bs.length
  if 2 * n < full then (n : Int) else (n : Int) - (full : Int)

/-- A level code as a signed 16-bit field. -/
def levelBytes (l : Int) : List Byte := bytesOf 2 (l % 65536).toNat

/-- The number of the byte at place `i`, 0 past the end. -/
def byteAt (bs : List Byte) (i : Nat) : Nat := (bs.getD i 0).toNat

/-- The bytes `i`, `i+1`, …, `i+n-1`. -/
def slice (bs : List Byte) (i n : Nat) : List Byte := (bs.drop i).take n

/-- An optional one-byte value; an absent one is sent as 0xFF (R200). -/
def optByte : Option Nat → List Byte
  | some n => [byte n]
  | none => [0xFF]

/-- A flag byte. -/
def flagByte (b : Bool) : List Byte := [if b then 1 else 0]

/-! ## Checks (R198, R199) -/

/-- One bit of the 8-bit CRC. -/
def crc8Bit (reg : BitVec 8) (bit : Bool) : BitVec 8 := if reg.msb = bit then reg <<< 1 else (reg <<< 1) ^^^ 0x07

/-- One bit of the 16-bit CRC. -/
def crc16Bit (reg : BitVec 16) (bit : Bool) : BitVec 16 := if reg.msb = bit then reg <<< 1 else (reg <<< 1) ^^^ 0x1021

/-- The bits of a byte, most significant first. -/
def bitsOf (b : Byte) : List Bool :=
  [b.getLsbD 7, b.getLsbD 6, b.getLsbD 5, b.getLsbD 4, b.getLsbD 3, b.getLsbD 2, b.getLsbD 1, b.getLsbD 0]

/-- The frame check: polynomial x^8+x^2+x+1, initial value 0 (R198). -/
def crc8 (bs : List Byte) : BitVec 8 := bs.foldl (fun reg b => (bitsOf b).foldl crc8Bit reg) 0

/-- The packet check and image check: polynomial x^16+x^12+x^5+1, initial value 0xFFFF (R173, R199). -/
def crc16 (bs : List Byte) : BitVec 16 := bs.foldl (fun reg b => (bitsOf b).foldl crc16Bit reg) 0xFFFF

/-! ## The frame (R198) -/

/-- The five bytes of a slot. -/
def SlotField.bytes (f : SlotField) : List Byte := [f.owner, f.flags] ++ bytesOf 3 f.sample.toNat

/-- A slot from its five bytes. -/
def SlotField.ofBytes (bs : List Byte) : SlotField where
  owner := bs.getD 0 0
  flags := bs.getD 1 0
  sample := BitVec.ofNat 24 (natOf (slice bs 2 3))

/-- Bytes 2-336 of a frame, over which its check runs. -/
def Frame.body (f : Frame) : List Byte :=
  [f.seq, f.master, f.marks, f.alarm] ++ bytesOf 2 f.fireZones.toNat ++ [f.issuer] ++ f.slots.flatMap SlotField.bytes ++ f.lane

/-- All 338 bytes. -/
def Frame.bytes (f : Frame) : List Byte := [0xB8, 0x47] ++ f.body ++ [f.check]

/-- The frame that a reception brings: 338 bytes that begin with a valid start word; nothing otherwise. -/
def Frame.ofBytes (bs : List Byte) : Option Frame :=
  if bs.length = 338 ∧ bs.getD 0 0 = 0xB8 ∧ bs.getD 1 0 = 0x47 then
    some {
      seq := bs.getD 2 0
      master := bs.getD 3 0
      marks := bs.getD 4 0
      alarm := bs.getD 5 0
      fireZones := BitVec.ofNat 16 (natOf (slice bs 6 2))
      issuer := bs.getD 8 0
      slots := (List.range 64).map fun n => SlotField.ofBytes (slice bs (9 + 5 * n) 5)
      lane := slice bs 329 8
      check := bs.getD 337 0 }
  else none

/-- The frame check is correct, so the frame is good (01 section 1.1). -/
def Frame.good (f : Frame) : Bool := crc8 f.body = f.check

/-- The damaged mark. -/
def Frame.damaged (f : Frame) : Bool := f.marks.getLsbD 0

/-- The turn mark. -/
def Frame.turned (f : Frame) : Bool := f.marks.getLsbD 1

/-- Good, and its damaged mark is clear (01 section 1.1). -/
def Frame.undamaged (f : Frame) : Bool := f.good && !f.damaged

/-- The frame with its check recomputed (R2). -/
def Frame.seal (f : Frame) : Frame := { f with check := crc8 f.body }

/-- The frame with its damaged mark set and its check recomputed (R9); the reserved bits of the byte are sent 0 (R198). -/
def Frame.markDamaged (f : Frame) : Frame := Frame.seal { f with marks := (f.marks &&& 3) ||| 1 }

/-- The copy sent west in WRAP_EAST (R2, R14); the reserved bits of the byte are sent 0 (R198). -/
def Frame.markTurned (f : Frame) : Frame := Frame.seal { f with marks := (f.marks &&& 3) ||| 2 }

/-- A node address from its byte: a slot owner above 239 is read as 0 (R198), and so is an authority entry (R96). -/
def addressOf (b : Byte) : Nat := if b.toNat > 239 then 0 else b.toNat

/-- A slot header's owner. -/
def SlotField.ownerOf (f : SlotField) : Nat := addressOf f.owner

/-- A slot header's class. -/
def SlotField.classOf (f : SlotField) : Nat := f.flags.toNat % 8

/-- A slot header's stamped flag. -/
def SlotField.stamped (f : SlotField) : Bool := f.flags.getLsbD 3

/-- A slot header's fresh flag. -/
def SlotField.fresh (f : SlotField) : Bool := f.flags.getLsbD 4

/-- A slot with the given header and sample. -/
def SlotField.make (owner cls : Nat) (stamped fresh : Bool) (sample : Sample) : SlotField where
  owner := byte owner
  flags := byte (cls % 8 + (if stamped then 8 else 0) + (if fresh then 16 else 0))
  sample := sample

/-- Free, unstamped, not fresh, sample 0 (R15, R16). -/
def SlotField.empty : SlotField := { owner := 0, flags := 0, sample := 0 }

/-- The alarm word of a frame; an issuer byte of 240-255 stays as received (log 36). -/
def Frame.word (f : Frame) : AlarmWord where
  set := f.alarm.getLsbD 7
  code := f.alarm.toNat % 16
  mask := f.fireZones
  issuer := f.issuer.toNat

/-- The first byte of an alarm word. -/
def AlarmWord.firstByte (w : AlarmWord) : Byte := byte (w.code % 16 + if w.set then 128 else 0)

/-- A fill frame (R15); the code, mask and issuer of its alarm word are 0 (log 50). -/
def Frame.fill (seq : Nat) (master : Byte) : Frame :=
  Frame.seal { seq := byte seq, master := master, marks := 1, alarm := 0, fireZones := 0, issuer := 0,
               slots := List.replicate 64 .empty, lane := List.replicate 8 0, check := 0 }

/-! ## The window and the packet (R199) -/

/-- Occupancy of a window. -/
inductive Occupancy where
  | empty
  | full
  | fullSeen
  deriving DecidableEq, Repr

/-- Delivery verdicts. -/
inductive Delivery where
  | none
  | copied
  | refused
  deriving DecidableEq, Repr

/-- An occupancy of any other value is read as EMPTY. -/
def Occupancy.ofByte (b : Byte) : Occupancy := if b = 0xA1 then .full else if b = 0xA2 then .fullSeen else .empty

/-- The byte of an occupancy. -/
def Occupancy.byte : Occupancy → Byte
  | .empty => 0x00
  | .full => 0xA1
  | .fullSeen => 0xA2

/-- Any other delivery value is read as NONE. -/
def Delivery.ofByte (b : Byte) : Delivery := if b = 0xC1 then .copied else if b = 0xC2 then .refused else .none

/-- The byte of a delivery verdict. -/
def Delivery.byte : Delivery → Byte
  | .none => 0x00
  | .copied => 0xC1
  | .refused => 0xC2

/-- The payload as it goes into the packet: of a response longer than 55 bytes, its status and its first results (R180, R200;
log 13). -/
def Packet.wirePayload (p : Packet) : List Byte :=
  if p.payload.length ≤ 55 then p.payload else p.payload.take (1 + min 54 (Config.longCut p.payload))

/-- Header and payload, over which the check runs (R180). -/
def Packet.checked (p : Packet) : List Byte :=
  [byte p.dest, byte p.src, byte p.kind, byte p.tag, byte p.wirePayload.length] ++ p.wirePayload

/-- The 64 bytes of a window into which the packet is inserted (R182, R199). -/
def Packet.window (p : Packet) : List Byte :=
  let inner := p.checked ++ bytesOf 2 (crc16 p.checked).toNat
  [Occupancy.full.byte] ++ inner ++ List.replicate (62 - inner.length) 0 ++ [Delivery.none.byte]

/-- The packet that 64 window bytes carry, when its check is good (R180, R199). -/
def Packet.ofWindow (w : List Byte) : Option Packet :=
  let n := byteAt w 5
  if n ≤ 55 ∧ natOf (slice w (6 + n) 2) = (crc16 (slice w 1 (5 + n))).toNat then
    some { dest := byteAt w 1, src := byteAt w 2, kind := byteAt w 3, tag := byteAt w 4, payload := slice w 6 n }
  else none

/-! ## Code numbers of payloads (R200, R201; the unstated ones in the order the manual lists them, log 13) -/

/-- Status codes (R187). -/
inductive Status where
  | ok
  | badLength
  | badValue
  | unknownKind
  | notFound
  | busy
  | full
  | noneAdmitted
  | noSlot
  | notMaster
  | notAuthorised
  | isProtected
  | inUse
  | alarmActive
  | mismatch
  deriving DecidableEq, Repr

/-- R200. -/
def Status.code : Status → Nat
  | .ok => 0
  | .badLength => 1
  | .badValue => 2
  | .unknownKind => 3
  | .notFound => 4
  | .busy => 5
  | .full => 6
  | .noneAdmitted => 7
  | .noSlot => 8
  | .notMaster => 9
  | .notAuthorised => 10
  | .isProtected => 11
  | .inUse => 12
  | .alarmActive => 13
  | .mismatch => 14

/-- R200. -/
def Reason.code : Reason → Nat
  | .hangup => 1
  | .noAnswer => 2
  | .notFound => 3
  | .noSlot => 4
  | .noRoute => 5
  | .pathLost => 6
  | .duplicate => 7
  | .evicted => 8
  | .capacity => 9
  | .busy => 10
  | .alarm => 11
  | .gone => 12

/-- The reason a packet carries; any other code is none (R200). -/
def Reason.ofCode (n : Nat) : Option Reason :=
  [Reason.hangup, .noAnswer, .notFound, .noSlot, .noRoute, .pathLost, .duplicate, .evicted, .capacity, .busy, .alarm,
    .gone].find? (fun r => r.code = n)

/-- R4's order. -/
def PortState.code : PortState → Nat
  | .noSignal => 0
  | .acquiring => 1
  | .locked => 2
  | .degraded => 3

/-- R13's order. -/
def WrapState.code : WrapState → Nat
  | .through => 0
  | .wrapWest => 1
  | .wrapEast => 2
  | .isolated => 3

/-- R193's order. -/
def NodeState.code : NodeState → Nat
  | .starting => 0
  | .running => 1
  | .noAddress => 2

/-- R193's order. -/
def ResetCause.code : ResetCause → Nat
  | .power => 0
  | .pin => 1
  | .command => 2

/-- R30's order. -/
def SlotState.code : SlotState → Nat
  | .idle => 0
  | .claiming => 1
  | .held => 2

/-- R39's order. -/
def TalkState.code : TalkState → Nat
  | .closed => 0
  | .claiming => 1
  | .sending => 2

/-- R39's order. -/
def TalkEnd.code : TalkEnd → Nat
  | .none => 0
  | .unsent => 1
  | .lost => 2
  | .noSlot => 3
  | .reset => 4

/-- Talk records 0-7, players 8-9, call records 10-17 (02 section 2.3's order). -/
def userCode : User → Nat
  | .talk i => i
  | .player p => 8 + p
  | .call r => 10 + r

/-- R197. -/
def ZoneKind.code : ZoneKind → Nat
  | .cabin => 0
  | .corridor => 1
  | .publicRoom => 2
  | .theatre => 3
  | .crew => 4
  | .exterior => 5

/-- R197. -/
def ZoneKind.ofCode : Nat → Option ZoneKind
  | 0 => some .cabin
  | 1 => some .corridor
  | 2 => some .publicRoom
  | 3 => some .theatre
  | 4 => some .crew
  | 5 => some .exterior
  | _ => none

/-- R197: 16 stands for ALL. -/
def FireZone.code : FireZone → Nat
  | .one f => f
  | .all => 16

/-- R197. -/
def FireZone.ofCode (n : Nat) : Option FireZone := if n < 16 then some (.one n) else if n = 16 then some .all else none

/-- R67's order. -/
def LayerState.code : LayerState → Nat
  | .active => 0
  | .held => 1
  | .releasing => 2

/-- Source kind and index (R200); CALL_TONE has no index. -/
def Source.bytes : Source → List Byte
  | .ring n => [0, byte n]
  | .input n => [1, byte n]
  | .player n => [2, byte n]
  | .alarm n => [3, byte n]
  | .callTone => [4, 0xFF]

/-- The source that a BIND's kind and index name, when both are in range and the kind is not internal (R53, R200). -/
def Source.ofBind (kind index : Nat) : Option Source :=
  match kind with
  | 0 => if index < 64 then some (.ring index) else none
  | 1 => if index < 8 then some (.input index) else none
  | 2 => if index < 2 then some (.player index) else none
  | _ => none

/-- Owner kind, then address and cookie, or the internal owner's number (R49's order, log 13). -/
def Owner.bytes : Owner → List Byte
  | .remote a c => [0, byte a] ++ bytesOf 2 c
  | .channel a => [1, byte a, 0xFF, 0xFF]
  | .player p => [2, byte p, 0xFF, 0xFF]
  | .call r => [3, byte r, 0xFF, 0xFF]

/-- R49's order, then the reasons of R52. -/
def Ending.code : Ending → Nat
  | .none => 0
  | .unbound => 1
  | .autoEnd => 2
  | .evicted => 3
  | .restart => 4

/-- R201. -/
def EqualRule.code : EqualRule → Nat
  | .mix => 0
  | .queue => 1

/-- R201. -/
def EqualRule.ofCode : Nat → Option EqualRule
  | 0 => some .mix
  | 1 => some .queue
  | _ => none

/-- R201. -/
def VolumeRule.code : VolumeRule → Nat
  | .zone => 0
  | .floor => 1
  | .fixed => 2

/-- R201. -/
def VolumeRule.ofCode : Nat → Option VolumeRule
  | 0 => some .zone
  | 1 => some .floor
  | 2 => some .fixed
  | _ => none

/-- The 6 bytes of a class record (R201). -/
def ClassRecord.bytes (c : ClassRecord) : List Byte :=
  [byte c.equal.code] ++ levelBytes c.duck ++ [byte c.volume.code, byte c.kinds.toNat, byte c.limit]

/-- R103's order: RING, C0, C1, NONE. -/
def AlarmFrom.code : AlarmFrom → Nat
  | .ring => 0
  | .c0 => 1
  | .c1 => 2
  | .none => 3

/-- R111's order. -/
def ChannelPhase.code : ChannelPhase → Nat
  | .idle => 0
  | .signal => 1
  | .voice => 2
  | .draining => 3

/-- An alarm word as in a frame. -/
def AlarmWord.bytes (w : AlarmWord) : List Byte := [w.firstByte] ++ bytesOf 2 w.mask.toNat ++ [byte w.issuer]

/-- A change record entry: source, code, mask, issuer, stamp (R100). -/
def ChangeEntry.bytes (e : ChangeEntry) : List Byte :=
  [byte e.source.code, byte e.code] ++ bytesOf 2 e.mask.toNat ++ [byte e.issuer] ++ bytesOf 4 e.stamp

/-- A change record entry, or its absent mark. -/
def changeBytes : Option ChangeEntry → List Byte
  | some e => e.bytes
  | none => List.replicate 9 0xFF

/-- R125's order. -/
def CallState.code : CallState → Nat
  | .idle => 0
  | .claiming => 1
  | .offering => 2
  | .alerting => 3
  | .ringing => 4
  | .connected => 5

/-- R125's order; absent is 0xFF. -/
def Role.code : Role → Nat
  | .caller => 0
  | .callee => 1
  | .absent => 255

/-- R125's order. -/
def Side.code : Side → Nat
  | .here => 0
  | .remote => 1

/-- R125's order. -/
def Outstanding.code : Outstanding → Nat
  | .none => 0
  | .ringing => 1
  | .answered => 2

/-- R149's order. -/
def JobState.code : JobState → Nat
  | .idle => 0
  | .waiting => 1
  | .claiming => 2
  | .playing => 3
  | .gap => 4
  | .stopping => 5

/-- R149's order. -/
def JobClaim.code : JobClaim → Nat
  | .none => 0
  | .requested => 1
  | .held => 2

/-- R149's order. -/
def Half.code : Half → Nat
  | .first => 0
  | .second => 1

/-- R149's order; NONE is 0. -/
def JobEnd.code : JobEnd → Nat
  | .complete => 1
  | .stopped => 2
  | .evicted => 3
  | .preempted => 4
  | .timeout => 5
  | .noSlot => 6
  | .restart => 7

/-- A job's end reason with NONE as 0. -/
def jobEndCode : Option JobEnd → Nat
  | some e => e.code
  | none => 0

/-- R201. -/
def OutSource.code : OutSource → Nat
  | .fixed => 0
  | .ringOk => 1
  | .ringAny => 2
  | .alarmAny => 3
  | .zoneClass => 4
  | .callRinging => 5
  | .contactEcho => 6

/-- R201. -/
def OutSource.ofCode : Nat → Option OutSource
  | 0 => some .fixed
  | 1 => some .ringOk
  | 2 => some .ringAny
  | 3 => some .alarmAny
  | 4 => some .zoneClass
  | 5 => some .callRinging
  | 6 => some .contactEcho
  | _ => none

/-- The 6 bytes of a selection (R201). -/
def Selection.bytes (o : Selection) : List Byte :=
  [byte o.source.code] ++ flagByte o.invert ++ bytesOf 2 o.zones.toNat ++ [byte o.kinds.toNat, byte o.param]

/-- A kind mask received with bit 6 or 7 set is taken with those bits clear (R197). -/
def kindMaskOf (b : Byte) : KindMask := b.setWidth 6

/-- A value set to the nearest end of its range (R1). -/
def clampInt (lo hi x : Int) : Int := max lo (min hi x)

/-- A value set to the nearest end of its range (R1). -/
def clampNat (lo hi x : Nat) : Nat := max lo (min hi x)

end Sys2Proof.Machine
end

