-- ==== Sys2Proof/Machine/Ops.lean ====
section
/-! DEFINITION. The named operations every block's meaning is built from: the flash store (R165, R166), one home for every
record of the part, the outbound queue with its rooms and reservations (R186), responses (R187) and notices (R189). -/

namespace Sys2Proof.Machine

/-! ## The flash store -/

/-- From address `lo` on: addresses strictly rising and inside the store, no entry equal to the unlisted byte. -/
def Memory.wfFrom (lo : Nat) : List Host.Cell → Bool
  | [] => true
  | (a, b) :: rest => lo ≤ a && a < Config.flashBytes && b != Config.unlistedByte && Memory.wfFrom (a + 1) rest

/-- The one canonical form of the flash store. -/
def Memory.wf (m : List Host.Cell) : Bool := Memory.wfFrom 0 m

/-- The byte at an address (R165). -/
def Memory.read : List Host.Cell → Nat → Byte
  | [], _ => Config.unlistedByte
  | (x, b) :: rest, a => if x = a then b else Memory.read rest a

/-- Put `v` at `a`, keeping the canonical form. -/
def Memory.put : List Host.Cell → Nat → Byte → List Host.Cell
  | [], a, v => if v = Config.unlistedByte then [] else [(a, v)]
  | (x, b) :: rest, a, v =>
    if a < x then (if v = Config.unlistedByte then (x, b) :: rest else (a, v) :: (x, b) :: rest)
    else if a = x then (if v = Config.unlistedByte then rest else (a, v) :: rest)
    else (x, b) :: Memory.put rest a v

/-- Store `v` at an address of the store; there is no byte past its end (R165). -/
def Memory.store (m : List Host.Cell) (a : Nat) (v : Byte) : List Host.Cell :=
  if a < Config.flashBytes then Memory.put m a v else m

/-- Write a byte: the AND of its present value and the value written (R166). -/
def Memory.program (m : List Host.Cell) (a : Nat) (v : Byte) : List Host.Cell := Memory.store m a (Memory.read m a &&& v)

/-- Write bytes from an address on (R166). -/
def Memory.programAll (m : List Host.Cell) : Nat → List Byte → List Host.Cell
  | _, [] => m
  | a, v :: rest => Memory.programAll (Memory.program m a v) (a + 1) rest

/-- Erase a sector: every byte of it becomes 0xFF, which is what an unlisted byte reads as (R166). -/
def Memory.eraseSector (m : List Host.Cell) (sector : Nat) : List Host.Cell := m.filter fun c => c.1 / 4096 ≠ sector

/-- An erase abandoned before it completed: each byte is left at a value between its old one and 0xFF bit by bit (R166);
`use` numbers the free bits. -/
def Memory.abandonErase (m : List Host.Cell) (sector use : Nat) : List Host.Cell :=
  (List.range 4096).foldl
    (fun m i => let a := sector * 4096 + i
                Memory.store m a (Memory.read m a ||| Config.abandonedBits use i)) m

/-- A write abandoned before it completed: each byte is left at its old value or at the AND (R166). -/
def Memory.abandonWrite (m : List Host.Cell) (use : Nat) : Nat → Nat → List Byte → List Host.Cell
  | _, _, [] => m
  | i, a, v :: rest =>
    Memory.abandonWrite (if (Config.abandonedBits use i).getLsbD 0 then Memory.program m a v else m) use (i + 1) (a + 1) rest

/-- Bytes `a`, `a+1`, … of the store. -/
def Memory.readAll (m : List Host.Cell) (a n : Nat) : List Byte := (List.range n).map fun i => Memory.read m (a + i)

/-- The address of a byte of a sector (R165). -/
def flashAddress (sector offset : Nat) : Nat := sector * 4096 + offset

/-- The bank of a sector (R165). -/
def bankOf (sector : Nat) : Nat := if sector < 1024 then 0 else 1

/-! ## One home for every record -/

def Node.zone (n : Node) (z : Nat) : Zone := n.mixer.zones.getD z .reset
def Node.modZone (n : Node) (z : Nat) (f : Zone → Zone) : Node :=
  { n with mixer := { n.mixer with zones := n.mixer.zones.modify z f } }
def Node.stack (n : Node) (z : Nat) : List Layer := (n.zone z).stack
def Node.setStack (n : Node) (z : Nat) (st : List Layer) : Node := n.modZone z fun r => { r with stack := st }
def Node.binding (n : Node) (id : Nat) : Option Binding := n.mixer.bindings.getD id none
def Node.setBinding (n : Node) (id : Nat) (b : Option Binding) : Node :=
  { n with mixer := { n.mixer with bindings := n.mixer.bindings.set id b } }
def Node.modBinding (n : Node) (id : Nat) (f : Binding → Binding) : Node :=
  { n with mixer := { n.mixer with bindings := n.mixer.bindings.modify id (Option.map f) } }
def Node.classRecord (n : Node) (c : Nat) : ClassRecord := n.mixer.classes.getD c (defaultClasses.getD c ⟨.mix, 0, .zone, 0, 6⟩)
def Node.entry (n : Node) (k : Nat) : SlotEntry := n.slots.table.getD k .reset
def Node.modEntry (n : Node) (k : Nat) (f : SlotEntry → SlotEntry) : Node :=
  { n with slots := { n.slots with table := n.slots.table.modify k f } }
def Node.reg (n : Node) (k : Nat) : RegEntry := n.slots.register.getD k .reset
def Node.setReg (n : Node) (k : Nat) (e : RegEntry) : Node :=
  { n with slots := { n.slots with register := n.slots.register.set k e } }
def Node.setWaiting (n : Node) (l : List Claim) : Node := { n with slots := { n.slots with waiting := l } }
def Node.talk (n : Node) (i : Nat) : TalkRecord := n.slots.talks.getD i .reset
def Node.modTalk (n : Node) (i : Nat) (f : TalkRecord → TalkRecord) : Node :=
  { n with slots := { n.slots with talks := n.slots.talks.modify i f } }
def Node.call (n : Node) (r : Nat) : CallRecord := n.calls.records.getD r .reset
def Node.modCall (n : Node) (r : Nat) (f : CallRecord → CallRecord) : Node :=
  { n with calls := { n.calls with records := n.calls.records.modify r f } }
def Node.station (n : Node) (i : Nat) : Station := n.calls.stations.getD i (.default i)
def Node.setSendList (n : Node) (l : List SendEntry) : Node := { n with calls := { n.calls with sendList := l } }
def Node.player (n : Node) (p : Nat) : Player := n.players.players.getD p .reset
def Node.modPlayer (n : Node) (p : Nat) (f : Player → Player) : Node :=
  { n with players := { n.players with players := n.players.players.modify p f } }
def Node.modJob (n : Node) (p : Nat) (f : Job → Job) : Node := n.modPlayer p fun q => { q with job := f q.job }
def Node.channel (n : Node) (a : Nat) : Channel := n.alarm.channels.getD a .reset
def Node.modChannel (n : Node) (a : Nat) (f : Channel → Channel) : Node :=
  { n with alarm := { n.alarm with channels := n.alarm.channels.modify a f } }
def Node.contact (n : Node) (k : Nat) : Contact := n.alarm.contacts.getD k .reset
def Node.modContact (n : Node) (k : Nat) (f : Contact → Contact) : Node :=
  { n with alarm := { n.alarm with contacts := n.alarm.contacts.modify k f } }
def Node.codeEntry (n : Node) (code : Nat) : CodeEntry := n.alarm.codeMap.getD code (.plain none)
def Node.flash (n : Node) (sector offset count : Nat) : List Byte :=
  Memory.readAll n.library.flash (flashAddress sector offset) count
def Node.setFlash (n : Node) (m : List Host.Cell) : Node := { n with library := { n.library with flash := m } }
def Node.port (n : Node) : Port → PortRecord
  | .west => n.ring.west
  | .east => n.ring.east

/-- The sixteen zone indices, ascending. -/
def zoneIndices : List Nat := List.range 16

/-- The node runs its work on frames and packets (R21, R196). -/
def Node.running (n : Node) : Bool := n.mgmt.node = .running

/-- The node has left STARTING. -/
def Node.started (n : Node) : Bool := n.mgmt.node ≠ .starting

/-- The node's address on the ring (R196); none outside RUNNING. -/
def Node.address (n : Node) : Nat := n.mgmt.address

/-- Whether a share of the coming frame time was taken by an event row (log 3). -/
def Node.took (n : Node) (sh : Share) : Bool := n.early.contains sh

/-- Note that a share of the coming frame time is taken (log 3). -/
def Node.mark (n : Node) (sh : Share) : Node := { n with early := sh :: n.early }

/-! ## The outbound queue (R186), responses (R187) and notices (R189) -/

/-- Occupied entries and reservations (R186). -/
def Node.load (n : Node) : Nat := n.lane.outbound.length + n.lane.reservations

/-- Enqueue at the tail. -/
def Node.enqueue (n : Node) (p : Packet) : Node := { n with lane := { n.lane with outbound := n.lane.outbound ++ [p] } }

/-- A command taken reserves an entry for its response (R186). -/
def Node.reserve (n : Node) : Node := { n with lane := { n.lane with reservations := n.lane.reservations + 1 } }

/-- A response that will not be sent frees its reservation (R186). -/
def Node.unreserve (n : Node) : Node := { n with lane := { n.lane with reservations := n.lane.reservations - 1 } }

/-- A response goes into its reservation (R186, R187): `kind` is the command's kind. -/
def Node.respond (n : Node) (who : Req) (kind : Nat) (status : Status) (results : List Byte) : Node :=
  n.unreserve.enqueue
    { dest := who.src, src := n.address, kind := kind + 0x40, tag := who.tag, payload := byte status.code :: results }

/-- A notice to an address (R189): not sent while STARTING or NO_ADDRESS; else counted, and enqueued when there is
notice room or dropped with the notice-lost flag set. -/
def Node.notice (n : Node) (dest kind : Nat) (payload : List Byte) : Node :=
  if n.running then
    let counted := { n with lane := { n.lane with noticeCount := (n.lane.noticeCount + 1) % 256 } }
    if n.load < 6 then
      counted.enqueue { dest := dest, src := n.address, kind := kind, tag := n.lane.noticeCount, payload := payload }
    else { counted with lane := { counted.lane with noticeLost := true } }
  else n

/-- A notice to the notice destination, which 0 turns off (R189). -/
def Node.generalNotice (n : Node) (kind : Nat) (payload : List Byte) : Node :=
  if n.lane.noticeDest = 0 then n else n.notice n.lane.noticeDest kind payload

/-- The Management Responder may take a command: RUNNING, no RESTART taken, RESET_N released, command room
(R185, R186, R195). -/
def Node.takesCommands (n : Node) : Bool :=
  n.running && n.mgmt.restart.isNone && !n.mgmt.held && decide (n.load < 8)

/-- The event in which a command is taken (R187): an entry is reserved, a source outside 1-239 discards the command, and
otherwise the owning block acts. A command the Responder may not take is not taken (log 1). -/
def Node.taken (n : Node) (who : Req) (work : Node → Node) : Node :=
  if n.takesCommands then (if 1 ≤ who.src ∧ who.src ≤ 239 then work n.reserve else n) else n

/-- A step that works on the part and leaves the queue of commands alone: every command and event has an effect. -/
def onNode (work : Node → Node) (s : State) : Host.Outcome State Fault Refusal := .next { s with node := work s.node }

end Sys2Proof.Machine
end

