-- ==== Sys2Proof/Machine/Level.lean ====
section
/-! DEFINITION. The level arithmetic (R90, R91): mantissa, shift and rounding, and the sine table of the tone generators
(R108). Exact integer arithmetic, narrowed once at the end. -/

namespace Sys2Proof.Machine

/-- The mantissa M[f] of R90. -/
def mantissa (f : Nat) : Int :=
  [32768, 34219, 35734, 37316, 38968, 40693, 42495, 44376, 46341, 48393, 50535, 52773, 55109, 57549, 60097, 62757].getD f 0

/-- The contribution of sample `s` at level code `l` in -384 … +32 (R90, R91): e = floor(l/16), f = l - 16e, k = 15 - e. -/
def scale (s l : Int) : Int :=
  let e := Int.fdiv l 16
  let f := (l - 16 * e).toNat
  let k := (15 - e).toNat
  Int.fdiv (s * mantissa f + 2 ^ (k - 1)) (2 ^ k)

/-- A sample scaled by a level code. -/
def scaleSample (s : Sample) (l : Int) : Sample := BitVec.ofInt 24 (scale s.toInt l)

/-- The first quarter of the sine table: round(8,388,607 × sin(2πj/256)) for j = 0 … 64 (R108). -/
def sineQuarter : List Int :=
  [0, 205867, 411609, 617104, 822227, 1026855, 1230864, 1434132, 1636536, 1837954, 2038265, 2237349, 2435084] ++
  [2631353, 2826037, 3019018, 3210181, 3399410, 3586592, 3771613, 3954362, 4134729, 4312606, 4487885, 4660460, 4830229] ++
  [4997087, 5160936, 5321676, 5479210, 5633444, 5784285, 5931641, 6075424, 6215548, 6351927, 6484481, 6613128, 6737792] ++
  [6858398, 6974872, 7087145, 7195148, 7298818, 7398091, 7492908, 7583211, 7668946, 7750062, 7826510, 7898243, 7965219] ++
  [8027396, 8084739, 8137211, 8184782, 8227422, 8265107, 8297813, 8325521, 8348214, 8365878, 8378503, 8386081, 8388607]

/-- Entry j of the sine table, j = 0 … 255 (R108), from the symmetry of the sine. -/
def sine (j : Nat) : Int :=
  if j ≤ 64 then sineQuarter.getD j 0
  else if j ≤ 128 then sineQuarter.getD (128 - j) 0
  else if j ≤ 192 then - sineQuarter.getD (j - 128) 0
  else - sineQuarter.getD (256 - j) 0

/-- The phase increment of a frequency: round(f × 16,777,216 / 48,000), rounded half up (R108). -/
def phaseIncrement (hz : Nat) : Nat := (hz * 16777216 * 2 + 48000) / 96000

end Sys2Proof.Machine
end

