-- ==== Sys2Proof/Machine/Claims.lean ====
section
/-! DEFINITION. Claims and releases of ring slots (02 sections 2.1-2.4): the pool order, the master's own decisions
(R28), the pending list (R30, R31) and releases (R36). What a user does on an outcome is in Outcomes.lean. -/

namespace Sys2Proof.Machine

/-- What the Slot Controller tells a user (02 section 2.3). -/
inductive ClaimOutcome where
  | confirmed (slot : Nat)
  | noSlot
  | lost
  deriving DecidableEq, Repr

/-- The order in which a claim of a class searches the slots (R25). -/
def poolOrder (cls : Nat) : List Nat :=
  if cls ≥ 6 then (List.range 8).map (· + 56) ++ List.range 56 else List.range 56

/-- A table entry is CLAIMING or HELD for a user (R30). -/
def SlotEntry.serves (e : SlotEntry) (u : User) : Bool := e.state ≠ .idle && e.claim.map (·.user) == some u

/-- A user has a pending, CLAIMING or HELD claim (R31). -/
def Node.hasClaim (n : Node) (u : User) : Bool :=
  n.slots.waiting.any (fun c => c.user == u) || n.slots.table.any (fun e => e.serves u)

/-- A new claim, with the next request number (R30). -/
def Node.newClaim (n : Node) (u : User) (cls : Nat) : Claim :=
  { user := u, cls := cls, attempts := 0, age := 0, order := n.slots.nextOrder }

/-- Advance the request number. -/
def Node.bumpOrder (n : Node) : Node := { n with slots := { n.slots with nextOrder := n.slots.nextOrder + 1 } }

/-- The master decides its own claim against its register (R28); an entry still HELD there is replaced (log 35). -/
def Node.masterClaim (n : Node) (u : User) (cls : Nat) : Node × ClaimOutcome :=
  match (poolOrder cls).find? (fun k => (n.reg k).owner = 0 && (n.entry k).owed = 0) with
  | some k =>
    (((n.setReg k { owner := n.address, cls := cls, orphan := 0 }).modEntry k fun e =>
      { e with state := .held, claim := some (n.newClaim u cls) }).bumpOrder, .confirmed k)
  | none => (n, .noSlot)

/-- A claim request (R31): refused, decided at the master, or added to the pending list. -/
def Node.requestClaim (n : Node) (u : User) (cls : Nat) : Node × Option ClaimOutcome :=
  if n.mgmt.node = .noAddress ∨ n.hasClaim u then (n, some .noSlot)
  else if n.ring.role then ((n.masterClaim u cls).1, some (n.masterClaim u cls).2)
  else ((n.setWaiting (n.slots.waiting ++ [n.newClaim u cls])).bumpOrder, none)

/-- An entry whose claim ends becomes IDLE; away from the master it owes a release (R28, R36). -/
def SlotEntry.release (e : SlotEntry) (master : Bool) : SlotEntry :=
  { state := .idle, claim := none, owed := if master then e.owed else 480 }

/-- A user releases what it holds (R28, R31, R36): a pending claim leaves the list, a CLAIMING or HELD entry becomes
IDLE with a release owed, and at the master the register entry is freed at once. -/
def Node.releaseClaim (n : Node) (u : User) : Node :=
  { n with slots := { n.slots with
      waiting := n.slots.waiting.filter fun c => c.user != u
      table := n.slots.table.map fun e => if e.serves u then e.release n.ring.role else e
      register := if n.ring.role then
          n.slots.register.mapIdx fun k r => if (n.entry k).serves u then RegEntry.reset else r
        else n.slots.register } }

/-- The ring sample of a player (R156, R162): its output scaled by the job's trim; 0 while P1 serves a voice phase. -/
def Player.ringSample (p : Player) : Sample := if p.voice.isSome then 0 else scaleSample p.out p.job.trim

/-- The sample a user gives the Slot Controller for this frame time (R39, R125, R156). -/
def Node.userSample (n : Node) : User → Sample
  | .talk i => n.pins.lanes.getD i 0
  | .player p => (n.player p).ringSample
  | .call r =>
    let c := n.call r
    if c.state = .connected then n.pins.lanes.getD (n.station c.station).mic 0 else 0

end Sys2Proof.Machine
end

