-- ==== Sys2Proof/Machine/Stacks.lean ====
section
/-! DEFINITION. Zone stacks (04 sections 4.2 and 4.4): order, the state rule (R72), duck targets (R74), pops (R76) and
targets of requests (R47, R48). -/

namespace Sys2Proof.Machine

/-- ACTIVE or HELD. -/
def Layer.live (l : Layer) : Bool := l.state ≠ .releasing

/-- A change between HELD and ACTIVE starts the fade again from -384 (R75), at the coming computation (R84). -/
def Layer.become (l : Layer) (st : LayerState) : Layer :=
  if l.state = st then l else { l with state := st, fade := fadeBottom, fresh := true }

/-- The state rule on a stack, top first (R72); `seen` lists the QUEUE classes whose ACTIVE layer has been met. -/
def applyStates (rule : Nat → EqualRule) : List Nat → List Layer → List Layer
  | _, [] => []
  | seen, l :: rest =>
    if l.live then
      match rule l.cls with
      | .mix => l.become .active :: applyStates rule seen rest
      | .queue =>
        if seen.contains l.cls then l.become .held :: applyStates rule seen rest
        else l.become .active :: applyStates rule (l.cls :: seen) rest
    else l :: applyStates rule seen rest

/-- The duck target of a layer of class `c` in a stack (R74). -/
def duckTarget (duck : Nat → Int) (st : List Layer) (c : Nat) : Int :=
  (st.filter fun l => l.state = .active && c < l.cls).foldl (fun t l => min t (duck l.cls)) 0

/-- Every layer with its duck target recomputed (R74). -/
def retarget (duck : Nat → Int) (st : List Layer) : List Layer :=
  st.map fun l => { l with target := duckTarget duck st l.cls }

/-- The state rule and then the duck targets, after an event in a stack (R72, R74). -/
def settleStack (classes : Nat → ClassRecord) (st : List Layer) : List Layer :=
  retarget (fun c => (classes c).duck) (applyStates (fun c => (classes c).equal) [] st)

/-- The zone's stack settled by the class table in force. -/
def Node.settle (n : Node) (z : Nat) : Node := n.setStack z (settleStack n.classRecord (n.stack z))

/-- The number of non-releasing layers of a class (R69). -/
def liveCount (st : List Layer) (c : Nat) : Nat := (st.filter fun l => l.live && l.cls = c).length

/-- A new layer's place: below every layer of its class or above (R68). -/
def insertLayer (l : Layer) (st : List Layer) : List Layer :=
  st.takeWhile (fun x => l.cls ≤ x.cls) ++ l :: st.dropWhile (fun x => l.cls ≤ x.cls)

/-- A popped layer (R76): RELEASING from the value its fade had, and silent when it was HELD (R55). -/
def Layer.pop (l : Layer) : Layer :=
  if l.live then { l with state := .releasing, fresh := true, silent := l.state = .held } else l

/-- The layer of a binding in a stack. -/
def layerOf (st : List Layer) (id : Nat) : Option Layer := st.find? fun l => l.binding = id

/-- Pop a binding's layer in one zone (R76); nothing where it has no non-releasing layer. -/
def Node.popZone (n : Node) (z id : Nat) : Node :=
  if (n.stack z).any (fun l => l.binding = id && l.live) then
    (n.setStack z ((n.stack z).map fun l => if l.binding = id then l.pop else l)).settle z
  else n

/-- Pop every layer of a binding (R55, R56, R57). -/
def Node.popAll (n : Node) (id : Nat) : Node := zoneIndices.foldl (fun n z => n.popZone z id) n

/-- Set a binding's ending field if it is NONE (R55-R58). -/
def Node.beginEnd (n : Node) (id : Nat) (why : Ending) : Node :=
  n.modBinding id fun b => if b.ending = .none then { b with ending := why } else b

/-- The internal pop layers request (R57): ignored for a FREE id or a binding of another owner. -/
def Node.popLayers (n : Node) (id : Option Nat) (owner : Owner) : Node :=
  match id with
  | none => n
  | some id =>
    match n.binding id with
    | some b => if b.owner = owner then (n.beginEnd id .unbound).popAll id else n
    | none => n

/-- Some LIVE binding has the CALL_TONE source (R110). -/
def Node.callToneLive (n : Node) : Bool := n.mixer.bindings.any fun b => b.any fun b => b.source == .callTone

/-- A generator restarted on a signal (R108). -/
def Generator.restart (g : Generator) (signal : Nat) : Generator :=
  { g with state := .running, signal := signal, step := 0, timer := 0, phase := 0 }

/-- A generator made IDLE (R110, R112); its step, timer and phase stay (log 70). -/
def Generator.toIdle (g : Generator) : Generator := { g with state := .idle, out := 0 }

/-- The zone mask that holds a set of zones. -/
def maskOf (zones : List Nat) : Mask16 := zones.foldl (fun m z => m ||| BitVec.twoPow 16 z) 0

/-- A malformed target (R47): a list with no entry or more than 8, or an entry outside 1-4095. -/
def targetMalformed : Target → Bool
  | .list zones => zones.isEmpty || decide (8 < zones.length) || zones.any fun z => z = 0 || decide (4095 < z)
  | .selector _ _ => false

/-- A zone record matches a target (R47, R48). -/
def Zone.hitBy (r : Zone) : Target → Bool
  | .list zones => r.logical ≠ 0 && zones.contains r.logical
  | .selector fireZones kinds =>
    (match r.fireZone with
      | .one f => fireZones.getLsbD f
      | .all => fireZones ≠ 0) && (kindMaskOf kinds).getLsbD r.kind.code

/-- The zones a target reaches, ascending (R47). -/
def Node.resolve (n : Node) (t : Target) : List Nat := zoneIndices.filter fun z => (n.zone z).hitBy t

end Sys2Proof.Machine
end

