-- ==== Sys2Proof/Machine/Endings.lean ====
section
/-! DEFINITION. How layers leave their stacks (R51, R73, R77) and what their bindings' ends bring about: BINDING ENDED
notices (R52), the end of a call (R141), the end and finish of a job (R158, R159), an alarm channel's return to IDLE (R112). -/

namespace Sys2Proof.Machine

/-! ## The end of a call (R141) -/

/-- A record's call id: its number plus 8 times its serial (R125). -/
def callIdOf (r : Nat) (c : CallRecord) : Nat := r + 8 * c.serial

/-- A signalling packet of this node (R180, 07 section 7.3). -/
def Node.signalling (n : Node) (dest kind : Nat) (payload : List Byte) : Packet :=
  { dest := dest, src := n.address, kind := kind, tag := 0, payload := payload }

/-- An entry of the send list is record `r`'s packet, closing or not. -/
def SendEntry.isOf (r : Nat) (closing : Bool) (e : SendEntry) : Bool :=
  e.tie.any fun t => t.record == r && t.closing == closing

/-- Place a packet tied to record `r`'s present call at the end of the send list (R127), as the one it has there. -/
def Node.sendTied (n : Node) (r : Nat) (closing : Bool) (p : Packet) : Node :=
  n.setSendList ((n.calls.sendList.filter fun e => !e.isOf r closing) ++
    [{ packet := p, tie := some { record := r, callId := callIdOf r (n.call r), closing := closing } }])

/-- Place an untied packet in the send list while fewer than 8 untied packets are there; otherwise it is dropped (R127). -/
def Node.sendUntied (n : Node) (p : Packet) : Node :=
  if (n.calls.sendList.filter fun e => e.tie.isNone).length < 8 then
    n.setSendList (n.calls.sendList ++ [{ packet := p, tie := none }])
  else n

/-- Remove the unsent tied packets of record `r`'s present call (R127, R141). -/
def Node.dropTied (n : Node) (r : Nat) : Node :=
  n.setSendList (n.calls.sendList.filter fun e =>
    !(e.tie.any fun t => t.record == r && t.callId == callIdOf r (n.call r)))

/-- The closing packet of a call (R141, step 2): a REJECT from a CALLEE in CLAIMING, a CLEAR from any other record. -/
def Node.closingPacket (n : Node) (r : Nat) (why : Reason) (side : Side) : Node :=
  let c := n.call r
  let quiet := n.dropTied r
  match side, c.remote with
  | .here, some dest =>
    let toId := byte (c.remoteId.getD 0)
    let fromId := byte (callIdOf r c)
    if c.role = .callee ∧ c.state = .claiming then
      quiet.sendTied r true (n.signalling dest 0x93 [toId, fromId, 1, byte why.code])
    else quiet.sendTied r true (n.signalling dest 0x94 [toId, fromId, byte why.code])
  | _, _ => quiet

/-- The CALL ENDED notice of a call that ends (R143). -/
def Node.callEndedNotice (n : Node) (r : Nat) (why : Reason) (side : Side) : Node :=
  let c := n.call r
  n.generalNotice 0x84
    ([byte n.address, byte (callIdOf r c), byte c.role.code, byte c.station] ++ bytesOf 2 c.number ++ [byte c.cls] ++
      optByte c.remote ++ optByte c.remoteId ++ [byte c.state.code, byte why.code, byte side.code])

/-- A call ends, in one event, in the order of R141; nothing for an IDLE record. -/
def Node.callEnd (n : Node) (r : Nat) (why : Reason) (side : Side) : Node :=
  let c := n.call r
  if c.state = .idle then n
  else
    let n1 := n.modCall r fun c => { c with clearReason := some why, clearSide := some side }
    let n2 := n1.closingPacket r why side
    let n3 := n2.releaseClaim (.call r)
    let n4 := (n3.popLayers c.tone (.call r)).popLayers c.listenBinding (.call r)
    let n5 := n4.callEndedNotice r why side
    n5.modCall r fun c => { c with state := .idle, timer := 0, talk := none, tone := none, listenBinding := none }

/-! ## The end of a job (R158, R159) -/

/-- The job has not begun to end: any state from PENDING to GAP. -/
def Job.running (j : Job) : Bool := j.state ≠ .idle && j.state ≠ .stopping

/-- The stream closes and the queue is emptied (R155); no end of a pass is left to take. -/
def Player.closeStream (p : Player) : Player := { p with streamOpen := false, queue := [], passDone := false }

/-- The PLAYER DONE notice (R159, R164). -/
def Node.playerDone (n : Node) (p : Nat) (why : JobEnd) : Node :=
  let j := (n.player p).job
  n.notice j.requester 0x86
    ([byte p, byte j.message] ++ bytesOf 2 j.cookie ++ [byte why.code] ++ bytesOf 2 j.passCount ++ bytesOf 2 j.underruns)

/-- A job in STOPPING finishes (R159). P1's stream and queue are left to a voice phase that has taken them (R162).
Its end reason becomes NONE (log 44). -/
def Node.jobFinish (n : Node) (p : Nat) : Node :=
  let why := (n.player p).job.endReason.getD .stopped
  let n1 := n.modPlayer p fun q => if q.voice.isSome then q else q.closeStream
  (n1.playerDone p why).modJob p fun j =>
    { j with state := .idle, lastEnd := some why, endReason := none, binding := none, claim := .none, talk := none, timer := 0 }

/-- The pair at work is the last of the pass, its FIRST frame given with its sample (R154, R157). -/
def Player.lastPair (p : Player) : Bool := p.job.half = .second && !p.underrunPair && p.job.position + 1 = p.job.length

/-- The present pass has no samples left (R158, R163): its last frame has been given, or is the output due in this frame time
(log 22). -/
def Node.passOver (n : Node) (p : Nat) : Bool :=
  (n.player p).passDone || ((n.player p).lastPair && !n.took (.player p))

/-- A job ends (R158). The stream stays open only for STOPPED with samples of the present pass left, that is from
PLAYING before the end of the pass (log 22). A job that has not to end keeps its reason. -/
def Node.jobEnd (n : Node) (p : Nat) (why : JobEnd) : Node :=
  let j := (n.player p).job
  if j.running then
    let n1 := n.modPlayer p fun q =>
      let q := { q with job := { q.job with state := .stopping, endReason := some why, timer := 0 } }
      if why = .stopped ∧ j.state = .playing ∧ n.passOver p = false then q else q.closeStream
    let n2 := n1.popLayers j.binding (.player p)
    let n3 := if j.claim = .none then n2
      else (n2.releaseClaim (.player p)).modJob p fun j => { j with claim := .none, talk := none }
    if j.binding.isNone then n3.jobFinish p else n3
  else n

/-- The WAIT gate (R152): WAIT clear, no binding, or every non-releasing layer of the binding ACTIVE. -/
def Node.gateOpen (n : Node) (p : Nat) : Bool :=
  let j := (n.player p).job
  !j.wait || match j.binding with
    | none => true
    | some id => zoneIndices.all fun z => (n.stack z).all fun l => l.binding ≠ id || l.state ≠ .held

/-- A job starts to play its first pass (R152, R157), its timer 0 (log 43). -/
def Job.startPlaying (j : Job) : Job :=
  { j with state := .playing, passCount := min 65535 (j.passCount + 1), position := 0, half := .first, timer := 0 }

/-- The claim gate and then PLAYING, or CLAIMING while it is closed (R152), the timer 0 (log 43). -/
def Job.passClaimGate (j : Job) : Job :=
  if j.ringOut ∧ j.claim ≠ .held then { j with state := .claiming, timer := 0 } else j.startPlaying

/-- Test the WAIT gate of a PENDING job (R152). -/
def Node.testGate (n : Node) (p : Nat) : Node :=
  if (n.player p).job.state = .waiting ∧ n.gateOpen p then n.modJob p Job.passClaimGate else n

/-! ## Reports to a binding's owner (R52, R65, R73, R139, R160) -/

/-- The call holds a binding as its tone or listen binding. -/
def CallRecord.holds (c : CallRecord) (id : Nat) : Bool := c.tone == some id || c.listenBinding == some id

/-- The eviction report of a binding that goes on, after an eviction or a trim (R65, R73, R139, R160). -/
def Node.evictionReport (n : Node) (id : Nat) : Node :=
  match n.binding id with
  | none => n
  | some b =>
    match b.owner with
    | .call r => if (n.call r).holds id then n.callEnd r .evicted .here else n
    | .player p => if (n.player p).job.binding = some id then n.testGate p else n
    | .remote _ _ => n
    | .channel _ => n

/-- The BINDING ENDED notice (R52). -/
def Node.bindingEndedNotice (n : Node) (id : Nat) (b : Binding) (why : Ending) : Node :=
  match b.owner with
  | .remote a cookie =>
    n.notice a 0x85 ([byte id] ++ bytesOf 2 cookie ++ b.source.bytes ++ [byte b.cls, byte why.code])
  | .channel _ => n
  | .player _ => n
  | .call _ => n

/-- The reason with which a binding ends (R52). -/
def Binding.endReason (b : Binding) : Ending := if b.ending = .none then .evicted else b.ending

/-- The internal end report (R52): a call whose layer was evicted ends (R139), a job ends or finishes (R159, R160), a
DRAINING channel becomes IDLE with its generator (R112). -/
def Node.endReport (n : Node) (id : Nat) (b : Binding) : Node :=
  match b.owner with
  | .remote _ _ => n
  | .channel a =>
    if (n.channel a).phase = .draining then
      n.modChannel a fun c => { c with phase := .idle, gen := c.gen.toIdle }
    else n
  | .call r =>
    if b.endReason = .evicted ∧ (n.call r).holds id then n.callEnd r .evicted .here else n
  | .player p =>
    let j := (n.player p).job
    if j.binding = some id then
      let n1 := n.modJob p fun j => { j with binding := none }
      if j.state = .stopping then n1.jobFinish p else n1.jobEnd p .evicted
    else n

/-- A binding whose zone mask is empty ends in the same event (R51, R52): its entry becomes FREE, the call tone stops
with its last binding (R110), and its owner is told. -/
def Node.bindingEnd (n : Node) (id : Nat) : Node :=
  match n.binding id with
  | none => n
  | some b =>
    let n1 := n.setBinding id none
    let n2 := if b.source = .callTone ∧ !n1.callToneLive then
        { n1 with alarm := { n1.alarm with callGen := n1.alarm.callGen.toIdle } }
      else n1
    (n2.bindingEndedNotice id b b.endReason).endReport id b

/-- A layer leaves its stack (R51): the zone is settled, the binding's bit is cleared, and an empty mask ends it. -/
def Node.removeLayer (n : Node) (z id : Nat) : Node :=
  let n1 := (n.setStack z ((n.stack z).filter fun l => l.binding ≠ id)).settle z
  let n2 := n1.modBinding id fun b => { b with zones := b.zones &&& ~~~(BitVec.twoPow 16 z) }
  if (n2.binding id).any (fun b => b.zones = 0) then n2.bindingEnd id else n2

/-- An eviction (R73): a removal, and an eviction report when the binding goes on, acted on before the admission's layer goes in
(log 60). -/
def Node.evictLayer (n : Node) (z id : Nat) : Node := (n.removeLayer z id).evictionReport id

end Sys2Proof.Machine
end

