-- ==== Sys2Proof/Machine/Admission.lean ====
section
/-! DEFINITION. Admissions (R69-R71), the push layers request (R57), the add zone and remove zone requests (R58, R114),
class changes (R63, R65). -/

namespace Sys2Proof.Machine

/-- The outcome of an admission (R69, R71). -/
inductive Admit where
  | active
  | held
  | refusedKind
  | refusedFull
  deriving DecidableEq, Repr

/-- A binding id of an alarm channel (R50). -/
def isAlarmId (id : Nat) : Bool := id = 62 || id = 63

/-- The class of the admission passes the kind check in a zone (R69). -/
def Node.kindAdmits (n : Node) (z c : Nat) : Bool := (n.classRecord c).kinds.getLsbD (n.zone z).kind.code

/-- The class is below its limit in a zone (R69). -/
def Node.limitAdmits (n : Node) (z c : Nat) : Bool := liveCount (n.stack z) c < (n.classRecord c).limit

/-- The lowest-placed RELEASING layer is cut (R70, R114); refused when there is none. -/
def Node.cutLowest (n : Node) (z : Nat) : Option Node :=
  ((n.stack z).reverse.find? fun l => !l.live).map fun l => n.removeLayer z l.binding

/-- Room for one more layer of class `c` (R70), with the alarm channels' added case (R114); absent when refused. -/
def Node.makeRoom (n : Node) (z c : Nat) (alarm : Bool) : Option Node :=
  if (n.stack z).length < 6 then some n
  else
    match (n.stack z).getLast? with
    | none => some n
    | some bottom =>
      if !bottom.live then some (n.removeLayer z bottom.binding)
      else if bottom.cls < c then
        if isAlarmId bottom.binding then n.cutLowest z else some (n.evictLayer z bottom.binding)
      else if alarm then n.cutLowest z
      else none

/-- The lowest FREE id in 0-61 (R50). -/
def Node.lowestFree (n : Node) : Option Nat := (List.range 62).find? fun id => (n.binding id).isNone

/-- A binding gains a zone, and is created when this is its first layer; the first CALL_TONE binding restarts the
call-tone generator on signal 7 (R51, R71, R110). -/
def Node.joinZone (n : Node) (z id : Nat) (b : Binding) : Node :=
  match n.binding id with
  | some _ => n.modBinding id fun b => { b with zones := b.zones ||| BitVec.twoPow 16 z }
  | none =>
    let n1 := if b.source = .callTone ∧ !n.callToneLive then
        { n with alarm := { n.alarm with callGen := n.alarm.callGen.restart 7 } }
      else n
    n1.setBinding id (some { b with zones := BitVec.twoPow 16 z })

/-- The new layer of a binding, before the state rule (R71). -/
def newLayer (id c : Nat) : Layer where
  binding := id
  cls := c
  state := .held
  fade := fadeBottom
  duck := 0
  target := 0
  duckCount := 0
  fresh := true
  silent := false

/-- Insert the binding's layer in a zone (R71): position, state rule, duck targets, and the layer's own duck at its
target. -/
def Node.insertInto (n : Node) (z id c : Nat) : Node :=
  let n1 := (n.setStack z (insertLayer (newLayer id c) (n.stack z))).settle z
  n1.setStack z ((n1.stack z).map fun l => if l.binding = id then { l with duck := l.target, duckCount := 0 } else l)

/-- The state of a binding's layer in a zone as an answer. -/
def Node.layerAnswer (n : Node) (z id : Nat) : Admit :=
  match layerOf (n.stack z) id with
  | some l => if l.state = .active then .active else .held
  | none => .refusedFull

/-- What an admission leaves: the node, the binding's id once it has one, and the outcome. -/
structure Admitted where
  node : Node
  id : Option Nat
  outcome : Admit

/-- One admission of binding `b`, whose id is `id` when it has one already, in zone `z` (R69-R71). An id that its own
eviction frees can be the one it takes (R50; log 54). -/
def Node.tryAdmit (n : Node) (z : Nat) (b : Binding) (id : Option Nat) (alarm : Bool) : Admitted :=
  if !n.kindAdmits z b.cls then ⟨n, id, .refusedKind⟩
  else if !n.limitAdmits z b.cls then ⟨n, id, .refusedFull⟩
  else
    match n.makeRoom z b.cls alarm with
    | none => ⟨n, id, .refusedFull⟩
    | some n1 =>
      match id <|> n1.lowestFree with
      | none => ⟨n1, id, .refusedFull⟩
      | some k =>
        let n2 := (n1.joinZone z k b).insertInto z k b.cls
        ⟨n2, some k, n2.layerAnswer z k⟩

/-- The outcome of a push: the node, the id of the binding created if any, and the four counts (R54, R57). -/
structure Pushed where
  node : Node
  id : Option Nat
  active : Nat
  held : Nat
  kind : Nat
  full : Nat

/-- One more zone of a push. -/
def Pushed.next (b : Binding) (acc : Pushed) (z : Nat) : Pushed :=
  let a := acc.node.tryAdmit z b acc.id false
  { node := a.node, id := a.id, active := acc.active, held := acc.held
    kind := acc.kind + (if a.outcome = .refusedKind then 1 else 0)
    full := acc.full + (if a.outcome = .refusedFull then 1 else 0) }

/-- The layers of a binding in a given state, over the zones of a set. -/
def Node.countLayers (n : Node) (zones : List Nat) (id : Option Nat) (st : LayerState) : Nat :=
  match id with
  | none => 0
  | some id => (zones.filter fun z => (layerOf (n.stack z) id).any fun l => l.state = st).length

/-- Admissions of a new binding in zones, ascending; layers are counted as they stand at the end (R54, R57). They are one step:
another request falls before or after them all (R78; log 55). -/
def Node.push (n : Node) (zones : List Nat) (b : Binding) : Pushed :=
  let p := zones.foldl (Pushed.next b) { node := n, id := none, active := 0, held := 0, kind := 0, full := 0 }
  { p with active := p.node.countLayers zones p.id .active, held := p.node.countLayers zones p.id .held }

/-- Ids 0-61 are all LIVE (R50). -/
def Node.bindingsFull (n : Node) : Bool := n.lowestFree.isNone

/-- The record of a binding that a block makes (R57). -/
def internalBinding (source : Source) (c : Nat) (gain : Int) (owner : Owner) : Binding where
  source := source
  cls := c
  gain := gain
  autoEnd := false
  freeRun := 0
  owner := owner
  zones := 0
  ending := .none

/-- Push one internal layer into one zone; the id when a layer was admitted (R57). -/
def Node.pushOne (n : Node) (z : Nat) (b : Binding) : Node × Option Nat :=
  if n.bindingsFull then (n, none) else ((n.push [z] b).node, (n.push [z] b).id)

/-! ## Alarm channels (R50, R58, R114) -/

/-- The binding id of an alarm channel (R50). -/
def alarmId (a : Nat) : Nat := 62 + a

/-- An alarm channel's binding (R50). -/
def alarmBinding (a : Nat) : Binding := internalBinding (.alarm a) 6 0 (.channel a)

/-- A reinstated layer, before the state rule: its fade goes on from the value it has reached (R58, R75). -/
def Layer.reinstated (l : Layer) : Layer := { l with state := .active, fresh := true, silent := false }

/-- A RELEASING layer stops releasing and keeps its place and fade; the zone is settled (R58, R75). -/
def Node.reinstate (n : Node) (z id : Nat) : Node :=
  (n.setStack z ((n.stack z).map fun l => if l.binding = id then l.reinstated else l)).settle z

/-- The ending field of an alarm channel's binding whose layer is admitted or reinstated becomes NONE (R58). -/
def Node.clearEnding (n : Node) (id : Nat) : Node := n.modBinding id fun b => { b with ending := .none }

/-- The add zone request of an alarm channel (R58). -/
def Node.addZone (n : Node) (a z : Nat) : Node :=
  let id := alarmId a
  match layerOf (n.stack z) id with
  | some l =>
    if l.live then n
    else if n.kindAdmits z 6 && n.limitAdmits z 6 then (n.reinstate z id).clearEnding id
    else n
  | none =>
    let r := n.tryAdmit z (alarmBinding a) (some id) true
    if r.outcome = .active ∨ r.outcome = .held then r.node.clearEnding id else r.node

/-- A binding has a non-releasing layer in some zone. -/
def Node.anyLive (n : Node) (id : Nat) : Bool :=
  zoneIndices.any fun z => (n.stack z).any fun l => l.binding = id && l.live

/-- The remove zone request (R58): the layer is popped, and with the last non-releasing one the end is begun. -/
def Node.removeZone (n : Node) (a z : Nat) : Node :=
  let id := alarmId a
  if (n.stack z).any (fun l => l.binding = id && l.live) then
    let n1 := n.popZone z id
    if n1.anyLive id then n1 else n1.beginEnd id .unbound
  else n

/-! ## Class changes (R63, R65) -/

/-- The ids of the non-releasing layers of class `c` past its limit, lowest placed first (R65). -/
def excess (st : List Layer) (c limit : Nat) : List Nat :=
  ((st.filter fun l => l.live && l.cls = c).drop limit).reverse.map (·.binding)

/-- The ids of the layers that a class change trims in a zone (R65), class by class. -/
def Node.excessIn (n : Node) (changed : List Nat) (z : Nat) : List Nat :=
  changed.flatMap fun c => excess (n.stack z) c (n.classRecord c).limit

/-- A layer that is trimmed when its binding is among `ids` (R65). -/
def Layer.trimIn (ids : List Nat) (l : Layer) : Layer := if ids.contains l.binding then l.pop else l

/-- A class change in one zone (R63): the excess of every changed class popped, then the state rule and the duck targets. -/
def Node.changeZone (changed : List Nat) (n : Node) (z : Nat) : Node :=
  (n.setStack z ((n.stack z).map (Layer.trimIn (n.excessIn changed z)))).settle z

/-- A class change applied to every stack, after the records of `changed` have been replaced (R63); then the bindings of the
trimmed layers are told, in the order of the zones (R65; log 40). -/
def Node.classChange (n : Node) (changed : List Nat) : Node :=
  (zoneIndices.flatMap (n.excessIn changed)).foldl Node.evictionReport (zoneIndices.foldl (Node.changeZone changed) n)

/-- The corrections of R62 for class `c`. -/
def correctClass (c : Nat) (r : ClassRecord) : ClassRecord :=
  { r with
    duck := if r.duck = mute then mute else clampInt (-384) 0 r.duck
    kinds := if c = 6 ∨ c = 7 then 0b111111 else r.kinds
    limit := if c = 6 then 1 else if c = 7 then clampNat 1 5 r.limit else clampNat 1 6 r.limit }

/-- Replace a class record. -/
def Node.setClass (n : Node) (c : Nat) (r : ClassRecord) : Node :=
  { n with mixer := { n.mixer with classes := n.mixer.classes.set c r } }

end Sys2Proof.Machine
end

