-- ==== Sys2Proof/Machine/Outcomes.lean ====
section
/-! DEFINITION. What each user does on a claim outcome: talk records (R39), call records (R129, R134, R139) and jobs
(R156); the answering of a call (R135); and how claims fail (R34, R37). -/

namespace Sys2Proof.Machine

/-! ## Talk records (R39) -/

/-- A talk record follows its claim, and its held SEND response is sent (R39, R40). -/
def Node.talkOutcome (n : Node) (i : Nat) (o : ClaimOutcome) : Node :=
  let t := n.talk i
  match o with
  | .confirmed k =>
    if t.state = .claiming then
      (n.modTalk i fun t => { t with state := .sending, slot := some k }).respond t.requester 0x0C .ok [byte k]
    else n
  | .noSlot =>
    if t.state = .claiming then
      (n.modTalk i fun t => { t with state := .closed, lastEnd := .noSlot, slot := none }).respond t.requester 0x0C .noSlot []
    else n
  | .lost =>
    if t.state = .sending then n.modTalk i fun t => { t with state := .closed, lastEnd := .lost, slot := none } else n

/-! ## Calls -/

/-- A record enters a state (R125): its timer starts, and the frame time keeps the path count with which it began (R138). -/
def CallRecord.enter (c : CallRecord) (st : CallState) : CallRecord :=
  { c with state := st, timer := 0, path := c.pathBefore, changed := true }

/-- Push a one-layer binding of a call into its station's speaker zone (R130, R131, R134, R135). -/
def Node.callPush (n : Node) (r : Nat) (source : Source) : Node × Option Nat :=
  let c := n.call r
  n.pushOne (n.station c.station).speaker (internalBinding source c.cls 0 (.call r))

/-- The answer is carried out (R135): tone popped, listen layer pushed, ANSWERED sent and CONNECTED, or CAPACITY. -/
def Node.carryOutAnswer (n : Node) (r : Nat) : Node :=
  let c := n.call r
  let n1 := (n.modCall r fun c => { c with answerPending := false, tone := none }).popLayers c.tone (.call r)
  let pushed := n1.callPush r (.ring (c.listen.getD 0))
  match pushed.2 with
  | some id =>
    let n2 := pushed.1.modCall r fun c =>
      { c.enter .connected with listenBinding := some id, outstanding := .answered }
    n2.sendTied r false (n2.signalling (c.remote.getD 0) 0x92 [byte (c.remoteId.getD 0), byte (callIdOf r c)])
  | none => pushed.1.callEnd r .capacity .here

/-- A CALLEE in RINGING is answered (R135): at once when nothing is outstanding, otherwise when its RINGING is COPIED. -/
def Node.answerCall (n : Node) (r : Nat) : Node :=
  if (n.call r).outstanding = .none then n.carryOutAnswer r
  else n.modCall r fun c => { c with answerPending := true }

/-- A CALLER's claim is confirmed (R129): the OFFER goes into the send list. -/
def Node.callerConfirmed (n : Node) (r k : Nat) : Node :=
  let c := n.call r
  let n1 := n.modCall r fun c => { c.enter .offering with talk := some k }
  n1.sendTied r false (n1.signalling 255 0x90
    (bytesOf 2 (n.station c.station).number ++ bytesOf 2 c.number ++ [byte (callIdOf r c), byte c.cls, byte k]))

/-- A CALLEE's claim is confirmed (R134): ring tone, RINGING, and auto-answer (R135); CAPACITY when no layer is admitted. -/
def Node.calleeConfirmed (n : Node) (r k : Nat) : Node :=
  let c := n.call r
  let n1 := n.modCall r fun c => { c with talk := some k }
  let pushed := n1.callPush r .callTone
  match pushed.2 with
  | some id =>
    let n2 := pushed.1.modCall r fun c =>
      { c.enter .ringing with tone := some id, outstanding := .ringing }
    let n3 := n2.sendTied r false
      (n2.signalling (c.remote.getD 0) 0x91 [byte (c.remoteId.getD 0), byte (callIdOf r c), byte k])
    if (n3.station c.station).auto then n3.answerCall r else n3
  | none => pushed.1.callEnd r .capacity .here

/-- A call record's claim outcome (R129, R134, R139). -/
def Node.callOutcome (n : Node) (r : Nat) (o : ClaimOutcome) : Node :=
  let c := n.call r
  match o with
  | .confirmed k =>
    if c.state = .claiming then
      match c.role with
      | .caller => n.callerConfirmed r k
      | .callee => n.calleeConfirmed r k
      | .absent => n
    else n
  | .noSlot => if c.state = .claiming then n.callEnd r .noSlot .here else n
  | .lost => n.callEnd r .pathLost .here

/-! ## Jobs (R156) -/

/-- A job's claim outcome (R156). -/
def Node.jobOutcome (n : Node) (p : Nat) (o : ClaimOutcome) : Node :=
  let j := (n.player p).job
  match o with
  | .confirmed k =>
    if j.running then
      n.modJob p fun j =>
        let j := { j with claim := .held, talk := some k }
        if j.state = .claiming then j.startPlaying else j
    else n
  | .noSlot => n.jobEnd p .noSlot
  | .lost => n.jobEnd p .noSlot

/-- The Slot Controller tells a user its outcome (02 section 2.3). -/
def Node.tell (n : Node) (u : User) (o : ClaimOutcome) : Node :=
  match u with
  | .talk i => n.talkOutcome i o
  | .player p => n.jobOutcome p o
  | .call r => n.callOutcome r o

/-- A user asks for a claim and is told at once what is decided at once (R28, R31). -/
def Node.claimFor (n : Node) (u : User) (cls : Nat) : Node :=
  match n.requestClaim u cls with
  | (n1, some o) => n1.tell u o
  | (n1, none) => n1

/-! ## Failing claims -/

/-- The pending or CLAIMING claim of a user (R34). -/
def Node.openClaim (n : Node) (u : User) : Option Claim :=
  (n.slots.waiting ++ (n.slots.table.filter fun e => e.state = .claiming).filterMap (·.claim)).find? fun c => c.user == u

/-- A CLAIMING entry of a user whose claim fails: IDLE with a release owed (R34). -/
def SlotEntry.failFor (u : User) (e : SlotEntry) : SlotEntry :=
  if e.state = .claiming && e.serves u then e.release false else e

/-- A pending or CLAIMING claim fails with NO_SLOT (R34, R37): a CLAIMING entry owes a release, a pending claim none. -/
def Node.failClaim (n : Node) (u : User) : Node :=
  let n1 := { n with slots := { n.slots with
    waiting := n.slots.waiting.filter fun c => c.user != u
    table := n.slots.table.map (SlotEntry.failFor u) } }
  n1.tell u .noSlot

/-- A claim in its place among others by request number (R30, R32). -/
def insertByOrder (c : Claim) : List Claim → List Claim
  | [] => [c]
  | d :: rest => if c.order ≤ d.order then c :: d :: rest else d :: insertByOrder c rest

/-- The users with a pending or CLAIMING claim, oldest request first. -/
def Node.openUsers (n : Node) : List User :=
  ((n.slots.waiting ++ (n.slots.table.filter fun e => e.state = .claiming).filterMap (·.claim)).foldr insertByOrder []).map
    (·.user)

/-- Every pending and CLAIMING claim fails (R37), oldest request first (log 60). -/
def Node.failAllClaims (n : Node) : Node := n.openUsers.foldl Node.failClaim n

end Sys2Proof.Machine
end

