-- ==== Sys2Proof/Machine/AlarmEngine.lean ====
section
/-! DEFINITION. The Alarm Engine's shared operations (06): change events (R100, R101), the fire-zone alarm table (R103),
the alarm recomputation (R104, R112, R113) and the early stop of a VOICE (R119). -/

namespace Sys2Proof.Machine

/-! ## Change events -/

/-- A change event writes the change record and asks for an ALARM CHANGE notice (R100, R101). -/
def Node.changeEvent (n : Node) (e : ChangeEntry) : Node :=
  let n1 := { n with alarm := { n.alarm with
    latest := some e
    firstUnread := n.alarm.firstUnread <|> some e
    unread := min 255 (n.alarm.unread + 1) } }
  n1.generalNotice 0x83 (e.bytes ++ [byte n.address])

/-- Contacts as sources (R100). -/
def contactSource (k : Nat) : AlarmFrom := if k = 0 then .c0 else .c1

/-! ## Precedence and the fire-zone table (R103) -/

/-- The codes in order of precedence, highest first; NONE ranks below them all (R103). -/
def precedence : List Nat := [1, 8, 9, 10, 11, 12, 13, 14, 15, 2, 3, 4, 5, 6, 7]

/-- The rank of a code (R103). -/
def rankOf (code : Nat) : Nat := precedence.findIdx (· == code)

/-- The claims on fire zone `f`, in the order in which an equal code's source is recorded (R103). -/
def Alarm.claims (a : Alarm) (f : Nat) : List FireEntry :=
  (if a.confirmed.set && a.confirmed.mask.getLsbD f then [⟨a.confirmed.code, .ring⟩] else []) ++
  (a.contacts.zipIdx.filterMap fun (c, k) =>
    if c.enabled && c.asserted && c.mask.getLsbD f then some ⟨c.code, contactSource k⟩ else none)

/-- The entry of fire zone `f` (R103). -/
def Alarm.fireEntry (a : Alarm) (f : Nat) : FireEntry :=
  let claims := a.claims f
  (precedence.findSome? fun code => claims.find? fun e => e.code = code).getD ⟨0, .none⟩

/-- The effective code of a zone (R104). -/
def Node.zoneCode (n : Node) (z : Nat) : Nat :=
  match (n.zone z).fireZone with
  | .one f => (n.alarm.table.getD f ⟨0, .none⟩).code
  | .all => (precedence.find? fun code => n.alarm.table.any fun e => e.code = code).getD 0

/-- The signal to which a zone's effective code maps (R104, R105). -/
def Node.zoneSignal (n : Node) (z : Nat) : Option Nat := (n.codeEntry (n.zoneCode z)).signal

/-! ## Signals on channels (R112) -/

/-- A channel is active while its phase is SIGNAL or VOICE (R111). -/
def Channel.active (c : Channel) : Bool := c.phase = .signal || c.phase = .voice

/-- Add a needed signal with its code, unless a higher-ranked code already needs it. -/
def addNeeded (acc : List (Nat × Nat)) (signal : Option Nat) (code : Nat) : List (Nat × Nat) :=
  match signal with
  | some s => if acc.any (fun x => x.1 == s) then acc else acc ++ [(s, code)]
  | none => acc

/-- The needed signals, highest rank first, each with its code (R112, step 1). -/
def Node.neededSignals (n : Node) : List (Nat × Nat) :=
  let codes := zoneIndices.map n.zoneCode
  (precedence.filter codes.contains).foldl (fun acc code => addNeeded acc (n.codeEntry code).signal code) []

/-- Channel `a` is active with a signal of the list. -/
def Node.holdsOneOf (n : Node) (top : List (Nat × Nat)) (a : Nat) : Bool :=
  (n.channel a).active && top.any fun x => (n.channel a).signal == some x.1

/-- The active channel that holds a signal. -/
def Node.channelOf (n : Node) (s : Nat) : Option Nat :=
  [0, 1].find? fun a => (n.channel a).active && (n.channel a).signal == some s

/-- P1 is stopped and freed from VOICE (R119, R162). -/
def Node.voiceStop (n : Node) : Node :=
  n.modPlayer 1 fun p => { p.closeStream with voice := none, underrunPair := false, out := 0 }

/-- A channel in VOICE leaves it; any other channel is as it was (R112, R119). -/
def Node.leaveVoice (n : Node) (a : Nat) : Node := if (n.channel a).phase = .voice then n.voiceStop else n

/-- A top-two signal already on an active channel stays there; the channel takes its code (R112, step 3). -/
def Node.keepSignal (n : Node) (x : Nat × Nat) : Node :=
  match n.channelOf x.1 with
  | some a => n.modChannel a fun c => { c with code := x.2 }
  | none => n

/-- A channel takes a new signal (R112, step 4). -/
def Node.takeSignal (n : Node) (a : Nat) (x : Nat × Nat) : Node :=
  (n.leaveVoice a).modChannel a fun c =>
    { c with phase := .signal, signal := some x.1, code := x.2, timer := 0, gen := c.gen.restart x.1 }

/-- A top-two signal on no active channel takes the lowest-numbered channel without a top-two signal (R112, step 4). -/
def Node.placeSignal (top : List (Nat × Nat)) (n : Node) (x : Nat × Nat) : Node :=
  if (n.channelOf x.1).isSome then n
  else
    match [0, 1].find? fun a => !n.holdsOneOf top a with
    | some a => n.takeSignal a x
    | none => n

/-- An active channel without a top-two signal gives up its signal (R112, step 5; R119). -/
def Node.giveUpSignal (top : List (Nat × Nat)) (n : Node) (a : Nat) : Node :=
  if (n.channel a).active && !n.holdsOneOf top a then
    let n1 := n.leaveVoice a
    if (n1.binding (alarmId a)).isSome then
      n1.modChannel a fun c => { c with phase := .draining, signal := none, code := 0 }
    else n1.modChannel a fun c => { c with phase := .idle, signal := none, code := 0, gen := c.gen.toIdle }
  else n

/-- The top two signals are assigned to the channels (R112). -/
def Node.assignSignals (n : Node) (top : List (Nat × Nat)) : Node :=
  [0, 1].foldl (Node.giveUpSignal top) (top.foldl (Node.placeSignal top) (top.foldl Node.keepSignal n))

/-! ## Layers of zones (R113) -/

/-- A zone's desired channel (R112). -/
def Node.desiredChannel (n : Node) (needed : List (Nat × Nat)) (z : Nat) : Option Nat :=
  match n.zoneSignal z with
  | none => none
  | some s => match n.channelOf s with
    | some a => some a
    | none => needed.head?.bind fun x => n.channelOf x.1

/-- A zone's current channel (R113). -/
def Node.currentChannel (n : Node) (z : Nat) : Option Nat :=
  [0, 1].find? fun a => (n.stack z).any fun l => l.binding = alarmId a && l.live

/-- Move one zone's alarm layer to its desired channel: the removal before the addition (R113). -/
def Node.placeZone (needed : List (Nat × Nat)) (n : Node) (z : Nat) : Node :=
  let desired := n.desiredChannel needed z
  let current := n.currentChannel z
  if desired = current then n
  else
    let n1 := match current with
      | some a => n.removeZone a z
      | none => n
    match desired with
    | some a => n1.addZone a z
    | none => n1

/-- One alarm recomputation, but for what its VOICE stops release in the flash queue (R104, R112, R113). -/
def Node.recomputeAlarm (n : Node) : Node :=
  let n1 := { n with alarm := { n.alarm with table := (List.range 16).map n.alarm.fireEntry } }
  let needed := n1.neededSignals
  zoneIndices.foldl (Node.placeZone needed) (n1.assignSignals (needed.take 2))

/-! ## Conditions read elsewhere -/

/-- Some alarm channel is active (R177). -/
def Node.alarmActive (n : Node) : Bool := n.alarm.channels.any Channel.active

/-- The channel in VOICE (R116: P1 serves one at a time). -/
def Node.voiceChannel (n : Node) : Option Nat := [0, 1].find? fun a => (n.channel a).phase = .voice

/-- P1 is alarm-owned (R118). -/
def Node.alarmOwned (n : Node) : Bool :=
  (n.alarm.channels.any fun c => c.active && (n.codeEntry c.code).message.isSome) || (n.player 1).voice.isSome

end Sys2Proof.Machine
end

