-- ==== Sys2Proof/Machine/Images.lean ====
section
/-! DEFINITION. The signal sector and the config image (R173, R174, R201): reading, correcting and building them. -/

namespace Sys2Proof.Machine

/-- An image is taken when its marker and its check are right (R173). -/
def imageTaken (bs : List Byte) (marker : Byte) : Bool :=
  bs.getD 0 0 = 0xA0 && bs.getD 1 0 = marker &&
    (crc16 (bs.take (bs.length - 2))).toNat = natOf (bs.drop (bs.length - 2))

/-! ## The signal sector -/

/-- One step of a signal record. -/
def SignalStep.ofBytes (bs : List Byte) : SignalStep :=
  { hz := natOf (slice bs 0 2), level := intOf (slice bs 2 2), ms := natOf (slice bs 4 2) }

/-- A step's values are in the ranges of R106. -/
def SignalStep.valid (st : SignalStep) : Bool :=
  (st.hz = 0 || (100 ≤ st.hz && st.hz ≤ 4000)) && (-384 ≤ st.level && st.level ≤ 0) && (10 ≤ st.ms && st.ms ≤ 10000)

/-- A signal record, replaced as a whole by the fallback signal when it is invalid (R106). -/
def Signal.ofBytes (bs : List Byte) : Signal :=
  let count := byteAt bs 0
  let loop := byteAt bs 1
  let steps := (List.range (min count 16)).map fun k => SignalStep.ofBytes (slice bs (2 + 6 * k) 6)
  if 1 ≤ count ∧ count ≤ 16 ∧ (loop = 255 ∨ loop < count) ∧ steps.all SignalStep.valid then
    { steps := steps, loop := if loop = 255 then none else some loop }
  else fallbackSignal

/-- A code map entry with the corrections of R105. -/
def CodeEntry.ofBytes (code : Nat) (bs : List Byte) : CodeEntry :=
  let signal := byteAt bs 0
  let message := byteAt bs 1
  let period := clampNat 5 120 (natOf (slice bs 2 2))
  if code = 0 then { signal := none, message := none, period := period }
  else
    { signal := if signal = 255 then none else if signal < 8 then some signal else some 0
      message := if message < 64 then some message else none
      period := period }

/-- A class record with the corrections of R62; an unknown rule is replaced by that class's default. -/
def ClassRecord.ofBytes (c : Nat) (bs : List Byte) : ClassRecord :=
  let dflt := defaultClasses.getD c ⟨.mix, 0, .zone, 0, 6⟩
  correctClass c
    { equal := (EqualRule.ofCode (byteAt bs 0)).getD dflt.equal
      duck := intOf (slice bs 1 2)
      volume := (VolumeRule.ofCode (byteAt bs 3)).getD dflt.volume
      kinds := kindMaskOf (bs.getD 4 0)
      limit := byteAt bs 5 }

/-- A contact's configuration fields (R98, R201), its live fields at rest. -/
def Contact.ofBytes (bs : List Byte) : Contact where
  enabled := byteAt bs 0 = 1
  activeHigh := byteAt bs 1 = 1
  code := if byteAt bs 2 ≤ 15 then byteAt bs 2 else 0
  mask := BitVec.ofNat 16 (natOf (slice bs 3 2))
  asserted := false
  run := 0
  stamp := 0

/-- An authority list entry: outside 1-239 it is loaded as 0 (R96). -/
def authorityOf (b : Byte) : Nat := addressOf b

/-- What the signal sector holds. -/
structure SignalSector where
  signals : List Signal
  codeMap : List CodeEntry
  classes : List ClassRecord
  contacts : List Contact
  authority : List Nat

/-- The contents of a signal-sector image, corrected (R201). -/
def SignalSector.ofBytes (bs : List Byte) : SignalSector where
  signals := (List.range 8).map fun r => Signal.ofBytes (slice bs (2 + 98 * r) 98)
  codeMap := (List.range 16).map fun c => CodeEntry.ofBytes c (slice bs (786 + 4 * c) 4)
  classes := (List.range 3).map fun c => ClassRecord.ofBytes (5 + c) (slice bs (850 + 6 * c) 6)
  contacts := (List.range 2).map fun k => Contact.ofBytes (slice bs (868 + 5 * k) 5)
  authority := (slice bs 878 4).map authorityOf

/-- What applies when the signal sector is not taken (R174). -/
def SignalSector.builtIn : SignalSector where
  signals := builtInSignals
  codeMap := defaultCodeMap
  classes := defaultClasses.drop 5
  contacts := [.reset, .reset]
  authority := [0, 0, 0, 0]

/-- The signal-sector image in flash, 884 bytes. -/
def Node.signalImage (n : Node) : List Byte := n.flash 0 0 884

/-- Classes 5-7 in force. -/
def Node.setHighClasses (n : Node) (cs : List ClassRecord) : Node :=
  { n with mixer := { n.mixer with classes := n.mixer.classes.mapIdx fun c r => if c < 5 then r else cs.getD (c - 5) r } }

/-- The start-up load of the signal sector (R174). -/
def Node.loadSignalSector (n : Node) : Node :=
  let taken := imageTaken n.signalImage 0x51
  let sector := if taken then SignalSector.ofBytes n.signalImage else .builtIn
  let n1 := n.setHighClasses sector.classes
  { n1 with
    alarm := { n1.alarm with signals := sector.signals, codeMap := sector.codeMap, contacts := sector.contacts,
                             authority := sector.authority }
    library := { n1.library with signalTaken := taken } }

/-! ## The config image -/

/-- A zone record's five configuration fields, corrected (R44), with V at the target at once. -/
def Zone.load (r : Zone) (bs : List Byte) : Zone :=
  let logical := natOf (slice bs 0 2)
  let target := clampInt (-384) 0 (intOf (slice bs 4 2))
  { r with
    logical := if logical ≤ 4095 then logical else 0
    fireZone := (FireZone.ofCode (byteAt bs 2)).getD .all
    kind := (ZoneKind.ofCode (byteAt bs 3)).getD .publicRoom
    volTarget := target
    vol := target
    volCount := 0
    floor := clampInt (-384) 0 (intOf (slice bs 6 2)) }

/-- The defaults of R43 for a zone record's configuration fields. -/
def Zone.loadDefaults (r : Zone) : Zone :=
  { r with logical := 0, fireZone := .all, kind := .publicRoom, volTarget := 0, vol := 0, volCount := 0, floor := -24 }

/-- A station record, corrected but for duplicates (R123). -/
def Station.ofBytes (i : Nat) (bs : List Byte) : Station :=
  let number := natOf (slice bs 0 2)
  { number := if number ≤ 9999 then number else 0
    mic := if byteAt bs 2 ≤ 7 then byteAt bs 2 else i
    speaker := if byteAt bs 3 ≤ 15 then byteAt bs 3 else i
    auto := byteAt bs 4 = 1 }

/-- A directory number that equals a lower-numbered station's becomes 0 (R123). -/
def dropDuplicates : List Nat → List Station → List Station
  | _, [] => []
  | seen, st :: rest =>
    if st.number ≠ 0 ∧ seen.contains st.number then { st with number := 0 } :: dropDuplicates seen rest
    else st :: dropDuplicates (st.number :: seen) rest

/-- A loaded selection, corrected (R191); what its source does not use stays as loaded (log 64). -/
def Selection.ofBytes (bs : List Byte) : Selection :=
  let source := (OutSource.ofCode (byteAt bs 0)).getD .fixed
  let p := byteAt bs 5
  { source := source
    invert := byteAt bs 1 = 1
    zones := BitVec.ofNat 16 (natOf (slice bs 2 2))
    kinds := kindMaskOf (bs.getD 4 0)
    param := match source with
      | .contactEcho => if p ≤ 1 then p else 0
      | .zoneClass => min p 7
      | .fixed => p
      | .ringOk => p
      | .ringAny => p
      | .alarmAny => p
      | .callRinging => p }

/-- The config image in flash, 256 bytes. -/
def Node.configInFlash (n : Node) : List Byte := n.flash 257 0 256

/-- The settings of a taken config image (R174), each corrected as its own rule gives. -/
def Node.applyConfig (n : Node) (bs : List Byte) : Node :=
  { n with
    mixer := { n.mixer with
      zones := n.mixer.zones.mapIdx fun z r => r.load (slice bs (2 + 8 * z) 8)
      classes := n.mixer.classes.mapIdx fun c r => if c < 5 then ClassRecord.ofBytes c (slice bs (130 + 6 * c) 6) else r }
    calls := { n.calls with
      stations := dropDuplicates [] ((List.range 8).map fun i => Station.ofBytes i (slice bs (160 + 5 * i) 5)) }
    mgmt := { n.mgmt with outputs := (List.range 4).map fun k => Selection.ofBytes (slice bs (200 + 6 * k) 6) }
    lane := { n.lane with groups := BitVec.ofNat 15 (natOf (slice bs 224 2)), noticeDest := byteAt bs 226 }
    ring := { n.ring with
      threshold := clampNat 1 255 (byteAt bs 227)
      hold := clampNat 4800 480000 (natOf (slice bs 228 4))
      orphanLimit := clampNat 48 4800 (natOf (slice bs 232 2)) } }

/-- The defaults that apply when the config image is not taken (R174). -/
def Node.applyDefaults (n : Node) : Node :=
  { n with
    mixer := { n.mixer with
      zones := n.mixer.zones.map Zone.loadDefaults
      classes := n.mixer.classes.mapIdx fun c r => if c < 5 then defaultClasses.getD c r else r }
    calls := { n.calls with stations := Calls.reset.stations }
    mgmt := { n.mgmt with outputs := defaultOutputs }
    lane := { n.lane with groups := 0, noticeDest := 0 }
    ring := { n.ring with threshold := 24, hold := 96000, orphanLimit := 480 } }

/-- The start-up load of the config image (R174, R196 frame time 1). -/
def Node.loadConfig (n : Node) : Node :=
  let taken := imageTaken n.configInFlash 0x57
  let n1 := if taken then n.applyConfig n.configInFlash else n.applyDefaults
  { n1 with library := { n1.library with configTaken := taken }, mgmt := { n1.mgmt with configRead := true } }

/-- A zone record's 8 bytes in the config image (R201). -/
def Zone.configBytes (r : Zone) : List Byte :=
  bytesOf 2 r.logical ++ [byte r.fireZone.code, byte r.kind.code] ++ levelBytes r.volTarget ++ levelBytes r.floor

/-- A station's 5 bytes in the config image (R201). -/
def Station.bytes (st : Station) : List Byte :=
  bytesOf 2 st.number ++ [byte st.mic, byte st.speaker] ++ flagByte st.auto

/-- The working config image but for its check: every setting in force (R174, R201). -/
def Node.workingImageBody (n : Node) : List Byte :=
  [0xA0, 0x57] ++ n.mixer.zones.flatMap Zone.configBytes ++ (n.mixer.classes.take 5).flatMap ClassRecord.bytes ++
    n.calls.stations.flatMap Station.bytes ++ n.mgmt.outputs.flatMap Selection.bytes ++ bytesOf 2 n.lane.groups.toNat ++
    [byte n.lane.noticeDest, byte n.ring.threshold] ++ bytesOf 4 n.ring.hold ++ bytesOf 2 n.ring.orphanLimit ++
    List.replicate 20 0

/-- The working config image, captured with its marker and a newly computed check (R176). -/
def Node.workingImage (n : Node) : List Byte := n.workingImageBody ++ bytesOf 2 (crc16 n.workingImageBody).toNat

/-! ## Catalogs (R147, R201) -/

/-- A catalog entry that is VALID and usable. -/
structure Entry where
  start : Nat
  length : Nat
  trim : Int
  deriving DecidableEq, Repr

/-- The last sector of an extent (R147). -/
def lastSector (start length : Nat) : Nat := start + (length + 2047) / 2048 - 1

/-- A sector lies in an extent (R147). -/
def inExtent (start length sector : Nat) : Bool := start ≤ sector && sector ≤ lastSector start length

/-- A message's catalog entry when it is VALID and usable (R147); the trim is clamped when the entry is read. -/
def Node.catalogEntry (n : Node) (message : Nat) : Option Entry :=
  let isOpen := 64 ≤ message
  let bs := if isOpen then n.flash 256 (8 * (message - 64)) 8 else n.flash 1 (8 * message) 8
  let start := natOf (slice bs 1 2)
  let length := natOf (slice bs 3 4)
  let low := if isOpen then 258 else 2
  let high := if isOpen then 2047 else 255
  if bs.getD 0 0 = 0x3C ∧ 1 ≤ length ∧ length ≤ 4194304 ∧ low ≤ start ∧ lastSector start length ≤ high then
    some { start := start, length := length, trim := clampInt (-64) 0 (intOf (slice bs 7 1)) }
  else none

/-- Library sample `k` of an extent (R147, R201). -/
def Node.librarySample (n : Node) (start k : Nat) : LibSample :=
  BitVec.ofNat 16 (natOf (n.flash (start + k / 2048) (2 * (k % 2048)) 2))

end Sys2Proof.Machine
end

