-- ==== Sys2Proof/Machine/FlashQueue.lean ====
section
/-! DEFINITION. The flash operation queue (09): bank busy state (R167), starts and deferral (R168, R169, R172), the delivery
of a reloaded signal sector (R121, R177). -/

namespace Sys2Proof.Machine

/-- The phase duration of an operation in frame times (R170, R176). -/
def FlashOp.duration (op : FlashOp) : Nat :=
  match op.phase with
  | .waiting => 0
  | .erasing => 1920
  | .writing => (12 * op.data.length + 24) / 25

/-- A bank is busy while the head operation runs a phase in it (R167). -/
def Node.bankBusy (n : Node) (bank : Nat) : Bool :=
  match n.library.ops with
  | [] => false
  | op :: _ => op.phase ≠ .waiting && bankOf op.sector = bank

/-- A bank is deferred while an alarm channel is in VOICE with a sector of its message there (R169). -/
def Node.deferred (n : Node) (bank : Nat) : Bool :=
  n.voiceChannel.isSome && (n.player 1).voice.any fun v =>
    bankOf v.start = bank || bankOf (lastSector v.start v.length) = bank

/-- Replace the queue. -/
def Node.setOps (n : Node) (ops : List FlashOp) : Node := { n with library := { n.library with ops := ops } }

/-- The command kind of an operation (R200). -/
def FlashKind.command : FlashKind → Nat
  | .erase => 0x30
  | .write => 0x31
  | .save => 0x33
  | .reload => 0x34

/-- The head operation leaves the queue and its response is enqueued (R168). -/
def Node.finishOp (n : Node) (op : FlashOp) (status : Status) (results : List Byte) : Node :=
  (n.setOps n.library.ops.tail).respond op.who op.kind.command status results

/-! ## RELOAD SIGNALS at the head (R121, R177) -/

/-- A contact takes its new configuration; an asserted one is then released, a change event with the contact's new mask
(R121, step 4; log 27). -/
def Node.reloadContact (n : Node) (x : Contact × Nat) : Node :=
  let old := n.contact x.2
  let n1 := n.modContact x.2 fun c => { x.1 with stamp := c.stamp }
  if old.asserted then
    n1.changeEvent { source := contactSource x.2, code := 0, mask := x.1.mask, issuer := 0, stamp := n.ring.counter }
  else n1

/-- The generator of a DRAINING channel, if RUNNING, restarts on the new record of its signal (R121, step 5). -/
def Channel.reloadGen (c : Channel) : Channel :=
  if c.phase = .draining ∧ c.gen.state = .running then { c with gen := c.gen.restart c.gen.signal } else c

/-- The call-tone generator, if not IDLE, restarts on the new record of signal 7 (R121, step 5). -/
def Generator.reloadCall (g : Generator) : Generator := if g.state = .idle then g else g.restart 7

/-- The new signal table, code map and authority list take effect (R121, steps 1 to 3). -/
def Node.setTables (n : Node) (sector : SignalSector) : Node :=
  { n with alarm := { n.alarm with
      signals := sector.signals, codeMap := sector.codeMap, authority := sector.authority } }

/-- Generators at work restart on the new records (R121, step 5). -/
def Node.reloadGens (n : Node) : Node :=
  { n with alarm := { n.alarm with
      callGen := n.alarm.callGen.reloadCall, channels := n.alarm.channels.map Channel.reloadGen } }

/-- The new contents are delivered in one event: classes 5-7 to the Zone Mixer (R63), then the rest to the
Alarm Engine (R121; log 46), C0 before C1 (log 38), with the recomputation of step 6 alone (log 69). -/
def Node.deliverSector (n : Node) (sector : SignalSector) : Node :=
  let n1 := ((n.setHighClasses sector.classes).classChange [5, 6, 7]).setTables sector
  (sector.contacts.zipIdx.foldl Node.reloadContact n1).reloadGens.recomputeAlarm

/-- RELOAD SIGNALS is carried out at the head (R177); the response follows the delivery's notices (log 46). -/
def Node.reloadAtHead (n : Node) (op : FlashOp) : Node :=
  if n.alarmActive then n.finishOp op .alarmActive []
  else if imageTaken n.signalImage 0x51 then
    (n.deliverSector (SignalSector.ofBytes n.signalImage)).finishOp op .ok []
  else n.finishOp op .mismatch []

/-! ## Starts (R168) -/

/-- The head operation enters a phase. -/
def Node.startHead (n : Node) (op : FlashOp) (phase : FlashPhase) (data : List Byte) : Node :=
  n.setOps ({ op with phase := phase, timer := 0, data := data } :: n.library.ops.tail)

/-- The head is considered for a start (R168): it starts, is refused by SIGLOCK and leaves (R172), is carried out
(RELOAD SIGNALS), or waits for the end of a deferral (R169). `fuel` bounds the heads considered in one event. -/
def Node.considerHeads : Nat → Node → Node
  | 0, n => n
  | fuel + 1, n =>
    match n.library.ops with
    | [] => n
    | op :: _ =>
      if op.phase ≠ .waiting then n
      else
        match op.kind with
        | .erase =>
          if n.deferred (bankOf op.sector) then n
          else if op.sector < 256 ∧ n.pins.siglock then Node.considerHeads fuel (n.finishOp op .isProtected [])
          else n.startHead op .erasing op.data
        | .write =>
          if n.deferred (bankOf op.sector) then n
          else if op.sector < 256 ∧ n.pins.siglock then Node.considerHeads fuel (n.finishOp op .isProtected [])
          else n.startHead op .writing op.data
        | .save =>
          if n.deferred (bankOf op.sector) then n else n.startHead op .erasing n.workingImage
        | .reload => Node.considerHeads fuel (n.reloadAtHead op)

/-- Consider as many heads as the queue can hold. -/
def Node.considerHead (n : Node) : Node := Node.considerHeads (n.library.ops.length + 1) n

/-- An operation joins the queue and, when it becomes the head, is considered for a start (R168). -/
def Node.enqueueOp (n : Node) (op : FlashOp) : Node := (n.setOps (n.library.ops ++ [op])).considerHead

/-- An alarm recomputation (R104); the end of a deferral considers the flash head in the same event (R169). -/
def Node.alarmEvent (n : Node) : Node := n.recomputeAlarm.considerHead

/-- A change event and then its recomputation (R100, R101, R104; log 60). -/
def Node.changeAndRecompute (n : Node) (e : ChangeEntry) : Node := (n.changeEvent e).alarmEvent

end Sys2Proof.Machine
end

