-- ==== Sys2Proof/Machine/PlayUnit.lean ====
section
/-! DEFINITION. The Player Unit (08): read streams (R155), the output of a player (R153, R154), what PLAY and STOP do once
their catalog read is due (R148, R150, R151, R161), and P1's voice service (R116, R117, R162). -/

namespace Sys2Proof.Machine

/-! ## Read streams (R155) -/

/-- What a player's stream reads: its extent, the position of the present pass and whether a further pass is due. -/
structure Stream where
  start : Nat
  length : Nat
  position : Nat
  due : Bool

/-- A further pass is due (R155, log 19); none for a job that has begun to end (R158). -/
def Job.furtherPass (j : Job) : Bool := j.state ≠ .stopping && (j.passes = 0 || j.passCount < j.passes)

/-- The stream that a player's queue is fed from; a voice phase plays once (R162). -/
def Player.stream (p : Player) : Stream :=
  match p.voice with
  | some v => ⟨v.start, v.length, v.position, false⟩
  | none => ⟨p.job.start, p.job.length, p.job.position, p.job.furtherPass⟩

/-- What the passes still need beyond a queue of `queued` samples: without end while a further pass is due, else the rest of
the present pass (R155). -/
def Stream.wanted (s : Stream) (queued : Nat) : Option Nat :=
  if s.due then none else some (s.length - (s.position + queued))

/-- The samples that a stream may deliver at once: up to 64, as many as the queue of 512 has room for and the passes need
(R155). -/
def Stream.allowance (s : Stream) (queued : Nat) : Nat :=
  let room := min 64 (512 - queued)
  match s.wanted queued with
  | none => room
  | some k => min room k

/-- Up to `fuel` samples from sample `next` on, from sample 0 after the last, as far as `stalled` lets their banks be read
(R155): the next sample of the stream and what it delivered. -/
def Node.streamBatch (n : Node) (s : Stream) (stalled : Nat → Bool) : Nat → Nat → List LibSample → Nat × List LibSample
  | 0, next, got => (next, got)
  | fuel + 1, next, got =>
    let k := if next < s.length then next else 0
    if stalled (bankOf (s.start + k / 2048)) then (next, got)
    else n.streamBatch s stalled fuel (k + 1) (got ++ [n.librarySample s.start k])

/-- One batch of an open stream (R155). -/
def Node.deliverBatch (n : Node) (p : Nat) (stalled : Nat → Bool) : Node :=
  let q := n.player p
  if q.streamOpen then
    let batch := n.streamBatch q.stream stalled (q.stream.allowance q.queue.length) q.streamNext []
    n.modPlayer p fun q => { q with queue := q.queue ++ batch.2, streamNext := batch.1 }
  else n

/-- The batch of the event in which a stream opens (R155). -/
def Node.deliverFirst (n : Node) (p : Nat) : Node := n.deliverBatch p n.bankBusy

/-- The batch of a frame time; a bank whose operation an event row ended early is still busy in it, and one whose operation an
event row started is not yet (R167, log 3). -/
def Node.deliverFrame (n : Node) (p : Nat) : Node :=
  n.deliverBatch p fun b => (n.bankBusy b && !n.took .headStart) || n.took (.flash b)

/-! ## The output of a player (R153, R154) -/

/-- A player at work: the position and half of its pass, its queue, and how the present pair goes. -/
structure Pair where
  position : Nat
  half : Half
  queue : List LibSample
  underrun : Bool

/-- What one frame time of a pass gives. -/
structure PairStep where
  pair : Pair
  out : Int
  missed : Bool
  done : Bool

/-- The FIRST frame checks the queue (R154) and gives s[k] × 256 (R153). -/
def Pair.first (c : Pair) (length : Nat) : PairStep :=
  match c.queue with
  | s :: rest =>
    if c.position + 1 = length ∨ !rest.isEmpty then
      ⟨{ c with half := .second, underrun := false }, s.toInt * 256, false, false⟩
    else ⟨{ c with half := .second, underrun := true }, 0, true, false⟩
  | [] => ⟨{ c with half := .second, underrun := true }, 0, true, false⟩

/-- The SECOND frame gives (s[k] + s[k+1]) × 128, with s[k] for s[k+1] at the last sample (R153); then sample k leaves
the queue (R154). The position of a finished pass stays at its last sample (log 20). -/
def Pair.next (c : Pair) (length : Nat) : PairStep :=
  if c.underrun then ⟨{ c with half := .first }, 0, false, false⟩
  else
    match c.queue with
    | [] => ⟨{ c with half := .first }, 0, false, false⟩
    | s :: rest =>
      let last := c.position + 1 = length
      let follower := if last then s else rest.headD s
      ⟨{ c with half := .first, queue := rest, position := if last then c.position else c.position + 1 },
        (s.toInt + follower.toInt) * 128, false, last⟩

/-- One frame time of a pass. -/
def Pair.step (c : Pair) (length : Nat) : PairStep :=
  match c.half with
  | .first => c.first length
  | .second => c.next length

/-- The job sounds: PLAYING, or STOPPING with its stream still open for the present pass (R153, R158). -/
def Player.sounds (p : Player) : Bool := p.job.state = .playing || (p.job.state = .stopping && p.streamOpen)

/-- The underrun count of R149, saturating. -/
def Job.countUnderrun (j : Job) (missed : Bool) : Job :=
  if missed then { j with underruns := min 65535 (j.underruns + 1) } else j

/-- A job's next frame of output. -/
def Player.jobFrame (p : Player) : Player :=
  let r := Pair.step ⟨p.job.position, p.job.half, p.queue, p.underrunPair⟩ p.job.length
  let j := p.job.countUnderrun r.missed
  { p with job := { j with position := r.pair.position, half := r.pair.half }, queue := r.pair.queue
           underrunPair := r.pair.underrun, out := BitVec.ofInt 24 r.out, passDone := r.done }

/-- The voice service's next frame of output; it keeps no underrun count (R162). -/
def Player.voiceFrame (p : Player) (v : Voice) : Player :=
  let r := Pair.step ⟨v.position, v.half, p.queue, p.underrunPair⟩ v.length
  { p with voice := some { v with position := r.pair.position, half := r.pair.half }, queue := r.pair.queue
           underrunPair := r.pair.underrun, out := BitVec.ofInt 24 r.out, passDone := r.done }

/-- A player gives its output of a frame time (R153). -/
def Player.frame (p : Player) : Player :=
  match p.voice with
  | some v => p.voiceFrame v
  | none => if p.sounds then p.jobFrame else { p with out := 0, passDone := false }

/-- A player's frame time: the samples its stream delivered, then its output (R154). -/
def Node.playerTick (n : Node) (p : Nat) : Node := (n.deliverFrame p).modPlayer p Player.frame

/-! ## The end of a pass (R157, R158) -/

/-- The next pass begins (R157). -/
def Job.nextPass (j : Job) : Job := j.startPlaying

/-- The end of a pass of an ordinary job: COMPLETE, GAP or the next pass (R157); a STOPPED job's stream closes (R158). -/
def Node.passEnd (n : Node) (p : Nat) : Node :=
  let j := (n.player p).job
  let n1 := n.modPlayer p fun q => { q with passDone := false }
  if j.state = .stopping then n1.modPlayer p Player.closeStream
  else if j.state = .playing then
    if j.passes ≠ 0 ∧ j.passes ≤ j.passCount then n1.jobEnd p .complete
    else if 0 < j.gap then n1.modJob p fun j => { j with state := .gap, timer := 0 }
    else n1.modJob p Job.nextPass
  else n1

/-! ## PLAY (R150, R151) -/

/-- A player can take a job (R150, check 8). -/
def Node.playerFree (n : Node) (p : Nat) : Bool := (n.player p).job.state = .idle && (p = 0 || !n.alarmOwned)

/-- The player that a PLAY names or ANY chooses (R150, check 8). -/
def Node.choosePlayer (n : Node) (named : Nat) : Option Nat :=
  if named = 2 then [0, 1].find? n.playerFree else if n.playerFree named then some named else none

/-- An extent shares a sector with a queued or running erase or write (R150, check 7). -/
def Node.extentInUse (n : Node) (e : Entry) : Bool :=
  n.library.ops.any fun op => (op.kind = .erase || op.kind = .write) && inExtent e.start e.length op.sector

/-- The checks of R150, in order: the player and the entry, or the status of the first check that fails. -/
def Node.checkPlay (n : Node) (a : PlayArgs) : Except Status (Nat × Entry) :=
  if 2 < a.player then .error .badValue
  else if 255 < a.message then .error .badValue
  else if !([2, 3, 5, 7].contains a.cls) then .error .badValue
  else if 15 < a.passes then .error .badValue
  else if a.target.any targetMalformed then .error .badValue
  else
    match n.catalogEntry a.message with
    | none => .error .notFound
    | some e =>
      if n.extentInUse e then .error .inUse
      else
        match n.choosePlayer a.player with
        | none => .error .busy
        | some p => if a.target.isSome ∧ n.bindingsFull then .error .full else .ok (p, e)

/-- The job record that a PLAY fills (R149, R151). -/
def jobOf (a : PlayArgs) (who : Req) (e : Entry) (last : Option JobEnd) : Job where
  state := .waiting
  message := a.message
  start := e.start
  length := e.length
  cls := a.cls
  gain := clampInt (-384) 32 (clampInt (-384) 32 a.gain + e.trim)
  trim := e.trim
  target := none
  ringOut := a.ringOut
  passes := a.passes
  passCount := 0
  gap := clampNat 0 10000 a.gapMs * 48
  wait := a.wait
  requester := who.src
  cookie := a.cookie
  binding := none
  talk := none
  claim := .none
  position := 0
  half := .first
  timer := 0
  underruns := 0
  endReason := none
  lastEnd := last

/-- The record filled and the stream opened at sample 0 with the queue empty (R151, steps 1 and 2). -/
def Node.openJob (n : Node) (who : Req) (a : PlayArgs) (p : Nat) (e : Entry) : Node :=
  (n.modPlayer p fun q =>
    { q with job := jobOf a who e q.job.lastEnd, queue := [], streamOpen := true, streamNext := 0, passDone := false }).deliverFirst p

/-- The push of a job's binding (R151, step 3); a PLAY without a target pushes none. -/
def Node.pushJob (n : Node) (p : Nat) (a : PlayArgs) : Pushed :=
  match a.target with
  | none => { node := n, id := none, active := 0, held := 0, kind := 0, full := 0 }
  | some t =>
    let zones := n.resolve t
    let j := (n.player p).job
    let r := n.push zones (internalBinding (.player p) j.cls j.gain (.player p))
    { r with node := r.node.modJob p fun j => { j with binding := r.id, target := some (maskOf zones) } }

/-- A job with nothing to play to is abandoned, its last end unchanged (R151, step 4) and its record cleared (log 42). -/
def Player.abandon (p : Player) : Player := { p.closeStream with job := { Job.reset with lastEnd := p.job.lastEnd } }

/-- The claim of a job with ring output, then its gates (R151, steps 5 and 6). -/
def Node.gateJob (n : Node) (p : Nat) (a : PlayArgs) : Node :=
  let n1 := if a.ringOut then
      (n.modJob p fun j => { j with claim := .requested }).claimFor (.player p) a.cls
    else n
  n1.testGate p

/-- The results of a PLAY, as they stand when its event is complete (R151); they echo neither gain nor gap (log 62). -/
def Node.playResults (n : Node) (p : Nat) (pushed : Pushed) : List Byte :=
  let j := (n.player p).job
  [byte p, byte j.state.code] ++ optByte j.binding ++ optByte j.talk ++
    [byte (n.countLayers zoneIndices pushed.id .active), byte (n.countLayers zoneIndices pushed.id .held),
      byte pushed.kind, byte pushed.full]

/-- A PLAY whose catalog read is made: checked and taken in one event (R150, R151). The response goes ahead of the
job's PLAYER DONE, with results as they stand at the end of the event; a refusal is the status byte alone (log 41). -/
def Node.playNow (n : Node) (who : Req) (a : PlayArgs) : Node :=
  match n.checkPlay a with
  | .error st => n.respond who 0x2C st []
  | .ok (p, e) =>
    let pushed := (n.openJob who a p e).pushJob p a
    if pushed.id.isNone ∧ !a.ringOut then
      (pushed.node.modPlayer p Player.abandon).respond who 0x2C .noneAdmitted []
    else
      (pushed.node.respond who 0x2C .ok ((pushed.node.gateJob p a).playResults p pushed)).gateJob p a

/-! ## STOP (R161) -/

/-- A STOP that waits behind no PLAY (R161); the PLAYER DONE of a job that finishes goes ahead of the response (log 45). -/
def Node.stopNow (n : Node) (who : Req) (p : Nat) : Node :=
  if 1 < p then n.respond who 0x2D .badValue []
  else if (n.player p).job.state = .idle then n.respond who 0x2D .notFound []
  else
    let n1 := n.jobEnd p .stopped
    n1.respond who 0x2D .ok [byte p, byte (n1.player p).job.state.code]

/-! ## Waiting on the catalog (R148) -/

/-- Replace the waiting PLAY and STOP commands. -/
def Node.setWaits (n : Node) (l : List PlayWait) : Node := { n with players := { n.players with waits := l } }

/-- A PLAY waits while bank 0 is busy, and behind a waiting PLAY (R148). -/
def Node.takePlay (n : Node) (who : Req) (a : PlayArgs) : Node :=
  if n.bankBusy 0 || !n.players.waits.isEmpty then n.setWaits (n.players.waits ++ [.play who a]) else n.playNow who a

/-- A STOP waits behind a waiting PLAY (R148). -/
def Node.takeStop (n : Node) (who : Req) (p : Nat) : Node :=
  if n.players.waits.isEmpty then n.stopNow who p else n.setWaits (n.players.waits ++ [.stop who p])

/-- One waiting command handed back to the Player Unit (R148). -/
def Node.resumeWait (n : Node) : PlayWait → Node
  | .play who a => n.playNow who a
  | .stop who p => n.stopNow who p

/-- The waiting commands, in the order taken, in the event that frees bank 0 (R148). -/
def Node.resumeWaits (n : Node) : Node := n.players.waits.foldl Node.resumeWait (n.setWaits [])

/-! ## P1's voice service (R116, R117, R162) -/

/-- The ordinary job on P1 gives way (R162). -/
def Node.preempt (n : Node) : Node :=
  if (n.player 1).job.running then n.jobEnd 1 .preempted else n.modPlayer 1 Player.closeStream

/-- P1 takes the message for the voice service (R162). -/
def Player.beginVoice (p : Player) (e : Entry) : Player :=
  { p with voice := some { start := e.start, length := e.length, trim := e.trim, position := 0, half := .first }
           queue := [], streamOpen := true, streamNext := 0, underrunPair := false, passDone := false, out := 0 }

/-- The channel enters VOICE: its generator is PAUSED and it is silent from this frame time (R116). The phase timer
stays as it stood (log 70). -/
def Channel.beginVoice (c : Channel) : Channel :=
  { c with phase := .voice, gen := { c.gen with state := .paused, out := 0 }, out := 0 }

/-- VOICE begins at channel `a` (R116, R162). -/
def Node.voiceBegin (n : Node) (a : Nat) (e : Entry) : Node :=
  ((n.preempt.modPlayer 1 fun p => p.beginVoice e).modChannel a Channel.beginVoice).deliverFirst 1

/-- The message that a channel's code names, when its VOICE may begin (R116): an entry of the protected catalog that is
VALID and usable, its bank not busy, P1 serving no VOICE. -/
def Node.voiceEntry (n : Node) (a : Nat) : Option Entry :=
  match (n.codeEntry (n.channel a).code).message.bind n.catalogEntry with
  | none => none
  | some e =>
    if n.bankBusy (bankOf e.start) || n.bankBusy (bankOf (lastSector e.start e.length)) || n.voiceChannel.isSome then none
    else some e

/-- The end of a channel's period (R115): VOICE, or another period with the generator as it stands. -/
def Node.periodEnd (n : Node) (a : Nat) : Node :=
  match n.voiceEntry a with
  | some e => n.voiceBegin a e
  | none => n.modChannel a fun c => { c with timer := 0 }

/-- The end of VOICE (R117): back to SIGNAL from its first step, P1 freed, and the flash head considered (R169). -/
def Node.voiceEnd (n : Node) : Node :=
  match n.voiceChannel with
  | none => n.voiceStop
  | some a =>
    (n.voiceStop.modChannel a fun c =>
      { c with phase := .signal, timer := 0, gen := c.gen.restart (c.signal.getD 0) }).considerHead

/-- What follows a player's last pair: VOICE's end, or the end of an ordinary pass (R117, R157). -/
def Node.playerEnd (n : Node) (p : Nat) : Node :=
  if (n.player p).passDone then (if (n.player p).voice.isSome then n.voiceEnd else n.passEnd p) else n

end Sys2Proof.Machine
end

