-- ==== Sys2Proof/Machine/FlashComplete.lean ====
section
/-! DEFINITION. Completions and abandonments of flash operations (R168, R170, R171, R172, R176) and the six commands on
flash once they are taken (R170, R171, R176, R177). -/

namespace Sys2Proof.Machine

/-! ## READ DATA (R171) -/

/-- A READ DATA is answered with the bytes as they stand (R171). -/
def Node.answerRead (n : Node) (w : ReadWait) : Node :=
  n.respond w.who 0x32 .ok
    (bytesOf 2 w.sector ++ bytesOf 2 w.offset ++ [byte w.count] ++ n.flash w.sector w.offset w.count)

/-- Replace the read wait list. -/
def Node.setReadWaits (n : Node) (l : List ReadWait) : Node := { n with library := { n.library with readWaits := l } }

/-- The readers held by a bank are served in the event that frees it (R168, step 3). -/
def Node.serveBank (n : Node) (bank : Nat) : Node :=
  let n1 := (n.library.readWaits.filter fun w => bankOf w.sector = bank).foldl Node.answerRead
    (n.setReadWaits (n.library.readWaits.filter fun w => bankOf w.sector ≠ bank))
  if bank = 0 then n1.resumeWaits else n1

/-! ## Completions (R168) -/

/-- The number of stored bytes that differ from the data sent (R170). -/
def Node.mismatches (n : Node) (op : FlashOp) : Nat :=
  ((List.zip (n.flash op.sector op.offset op.data.length) op.data).filter fun x => x.1 ≠ x.2).length

/-- The data of an operation programmed into its sector (R166). -/
def Node.programOp (n : Node) (op : FlashOp) : Node :=
  n.setFlash (Memory.programAll n.library.flash (flashAddress op.sector op.offset) op.data)

/-- The erase phase's effect (R166). -/
def Node.eraseOp (n : Node) (op : FlashOp) : Node := n.setFlash (Memory.eraseSector n.library.flash op.sector)

/-- The response of a completed write phase (R170, R176). -/
def Node.finishWrite (n : Node) (op : FlashOp) : Node :=
  let wrong := n.mismatches op
  let status := if wrong = 0 then Status.ok else .mismatch
  match op.kind with
  | .save => if wrong = 0 then n.finishOp op .ok (op.data.drop 254) else n.finishOp op .mismatch []
  | .erase | .write | .reload =>
    n.finishOp op status (bytesOf 2 op.sector ++ bytesOf 2 op.offset ++ [byte op.data.length, byte wrong])

/-- The head's phase completes, in the order of R168: the bank is freed, the response goes out, the bank's readers are
served, and the next phase or head starts. -/
def Node.completePhase (n : Node) (op : FlashOp) : Node :=
  let bank := bankOf op.sector
  match op.phase, op.kind with
  | .waiting, _ => n
  | .erasing, .save =>
    let freed := (n.eraseOp op).setOps ({ op with phase := .waiting } :: n.library.ops.tail)
    let served := freed.serveBank bank
    served.setOps ({ op with phase := .writing, timer := 0 } :: served.library.ops.tail)
  | .erasing, _ => (((n.eraseOp op).finishOp op .ok (bytesOf 2 op.sector)).serveBank bank).considerHead
  | .writing, _ => (((n.programOp op).finishWrite op).serveBank bank).considerHead

/-- What an abandoned phase leaves in flash (R166): free bits between old and new. -/
def Node.abandonPhase (n : Node) (op : FlashOp) : Node :=
  match op.phase with
  | .waiting => n
  | .erasing => { n.setFlash (Memory.abandonErase n.library.flash op.sector n.freeCount) with freeCount := n.freeCount + 1 }
  | .writing =>
    { n.setFlash (Memory.abandonWrite n.library.flash n.freeCount 0 (flashAddress op.sector op.offset) op.data) with
      freeCount := n.freeCount + 1 }

/-- An ERASE or WRITE DATA of a protected sector whose phase is running (R172). -/
def FlashOp.shielded (op : FlashOp) : Bool :=
  op.phase ≠ .waiting && (op.kind = .erase || op.kind = .write) && op.sector < 256

/-- SIGLOCK read asserted (R172): a shielded head is abandoned with PROTECTED and the queue goes on. -/
def Node.siglockRead (n : Node) : Node :=
  match n.library.ops with
  | [] => n
  | op :: _ =>
    if op.shielded then
      (((n.abandonPhase op).finishOp op .isProtected []).serveBank (bankOf op.sector)).considerHead
    else n

/-- One frame time of the head's phase (R168): its timer counts, and at its duration it completes. -/
def Node.phaseTick (n : Node) : Node :=
  match n.library.ops with
  | [] => n
  | op :: rest =>
    if op.phase = .waiting then n
    else if op.duration ≤ op.timer + 1 then n.completePhase op
    else n.setOps ({ op with timer := op.timer + 1 } :: rest)

/-! ## The commands, once taken -/

/-- A sector lies inside the extent of a player job that is not IDLE (R170, check 4). -/
def Node.sectorPlayed (n : Node) (sector : Nat) : Bool :=
  n.players.players.any fun p => p.job.state ≠ .idle && inExtent p.job.start p.job.length sector

/-- A new operation, WAITING. -/
def newOp (kind : FlashKind) (sector offset : Nat) (data : List Byte) (who : Req) : FlashOp :=
  { kind := kind, sector := sector, offset := offset, data := data, phase := .waiting, timer := 0, who := who }

/-- The queue holds four operations (R168). -/
def Node.opsFull (n : Node) : Bool := 4 ≤ n.library.ops.length

/-- Checks 3 to 5 of R170, and the operation's place in the queue. -/
def Node.admitOp (n : Node) (op : FlashOp) : Node :=
  if op.sector < 256 ∧ n.pins.siglock then n.respond op.who op.kind.command .isProtected []
  else if n.sectorPlayed op.sector then n.respond op.who op.kind.command .inUse []
  else if n.opsFull then n.respond op.who op.kind.command .busy []
  else n.enqueueOp op

/-- ERASE (R170). -/
def Node.takeErase (n : Node) (who : Req) (sector : Nat) : Node :=
  if 2047 < sector then n.respond who 0x30 .badValue [] else n.admitOp (newOp .erase sector 0 [] who)

/-- WRITE DATA (R170). -/
def Node.takeWrite (n : Node) (who : Req) (sector offset : Nat) (data : List Byte) : Node :=
  if 2047 < sector then n.respond who 0x31 .badValue []
  else if data.length = 0 ∨ 48 < data.length then n.respond who 0x31 .badLength []
  else if 4095 < offset ∨ 4096 < offset + data.length then n.respond who 0x31 .badValue []
  else n.admitOp (newOp .write sector offset data who)

/-- READ DATA (R171). -/
def Node.takeRead (n : Node) (who : Req) (sector offset count : Nat) : Node :=
  if 2047 < sector then n.respond who 0x32 .badValue []
  else if count = 0 ∨ 48 < count ∨ 4095 < offset ∨ 4096 < offset + count then n.respond who 0x32 .badValue []
  else
    let w : ReadWait := { who := who, sector := sector, offset := offset, count := count }
    if n.bankBusy (bankOf sector) then
      if 4 ≤ n.library.readWaits.length then n.respond who 0x32 .busy [] else n.setReadWaits (n.library.readWaits ++ [w])
    else n.answerRead w

/-- SAVE CONFIG (R176). -/
def Node.takeSave (n : Node) (who : Req) : Node :=
  if n.opsFull then n.respond who 0x33 .busy [] else n.enqueueOp (newOp .save 257 0 [] who)

/-- RELOAD SIGNALS (R177). -/
def Node.takeReload (n : Node) (who : Req) : Node :=
  if n.alarmActive then n.respond who 0x34 .alarmActive []
  else if n.opsFull then n.respond who 0x34 .busy []
  else n.enqueueOp (newOp .reload 0 0 [] who)

end Sys2Proof.Machine
end

