-- ==== Sys2Proof/Machine/Ports.lean ====
section
/-! DEFINITION. The receive ports (R5-R8), their use (R12), the wrap state with the effects of its changes (R13), and the
transmitters (R14, R15). -/

namespace Sys2Proof.Machine

/-! ## A receive port's frame time -/

/-- A sequence number plus one (01 section 1.1). -/
def nextSeq (s : Nat) : Nat := (s + 1) % 256

/-- A lock loss (R4, R5, R8). -/
def PortRecord.loseLock (p : PortRecord) : PortRecord := { p with lockLosses := min 255 (p.lockLosses + 1) }

/-- The port enters LOCKED with a new error window (R6). -/
def PortRecord.lock (p : PortRecord) : PortRecord :=
  { p with state := .locked, lockedRun := 0, windowPos := 0, windowErrors := 0 }

/-- The port is in LOCKED or DEGRADED. -/
def PortRecord.tracking (p : PortRecord) : Bool := p.state = .locked || p.state = .degraded

/-- The state of a tracking port at the 4,800th frame time of a window (R7). -/
def PortRecord.settleWindow (p : PortRecord) (threshold : Nat) : PortRecord :=
  let q := { p with windowPos := 0, windowErrors := 0 }
  if p.windowErrors < threshold then
    if p.state = .degraded then { q with state := .locked, lockedRun := 0 } else q
  else { q with state := .degraded }

/-- One frame time of a tracking port's window and locked run (R7, R8); the frame time whose window end degrades a LOCKED port
counts in its locked run (log 66). -/
def PortRecord.window (p : PortRecord) (threshold : Nat) : PortRecord :=
  let q := if p.state = .locked then { p with lockedRun := min 480000 (p.lockedRun + 1) } else p
  if p.windowPos + 1 < 4800 then { q with windowPos := p.windowPos + 1 } else q.settleWindow threshold

/-- A check error at a tracking port (R7); a frame time in which it degrades the port does not count in the locked run
(log 66). -/
def PortRecord.checkError (p : PortRecord) (threshold : Nat) : PortRecord :=
  let q := { p with windowErrors := p.windowErrors + 1, totalErrors := min 65535 (p.totalErrors + 1) }
  if threshold ≤ q.windowErrors then { q with state := .degraded } else q

/-- A frame time with no valid start word (R5). -/
def PortRecord.silentTick (p : PortRecord) (threshold : Nat) : PortRecord :=
  let q := { p with silent := min 8 (p.silent + 1), expected := p.expected.map nextSeq }
  if q.silent = 8 ∧ p.state ≠ .noSignal then
    let r := { q with state := .noSignal, expected := none }
    if p.tracking then r.loseLock else r
  else if p.tracking then q.window threshold
  else q

/-- A frame at a port in ACQUIRING (R6). -/
def PortRecord.acquire (p : PortRecord) (f : Frame) : PortRecord :=
  let good := f.good
  let run := if !good then 0 else if p.expected = some f.seq.toNat then p.run + 1 else 1
  let q := { p with run := run, expected := if good then some (nextSeq f.seq.toNat) else p.expected.map nextSeq }
  if 16 ≤ run then { q with run := 16 }.lock else q

/-- A frame at a tracking port: a discontinuity, a check error or neither, in its window (R7, R8). -/
def PortRecord.track (p : PortRecord) (threshold : Nat) (f : Frame) : PortRecord :=
  if f.good then
    if p.expected = some f.seq.toNat then { p with expected := p.expected.map nextSeq }.window threshold
    else { p with state := .acquiring, run := 1, expected := some (nextSeq f.seq.toNat) }.loseLock
  else ({ p with expected := p.expected.map nextSeq }.checkError threshold).window threshold

/-- One frame time of a receiver's record (R5-R8). -/
def PortRecord.tick (p : PortRecord) (threshold : Nat) (rx : Option Frame) : PortRecord :=
  match rx with
  | none => p.silentTick threshold
  | some f =>
    let q := { p with silent := 0 }
    match p.state with
    | .noSignal =>
      { q with state := .acquiring, expected := some (nextSeq f.seq.toNat), run := if f.good then 1 else 0 }
    | .acquiring => q.acquire f
    | .locked => q.track threshold f
    | .degraded => q.track threshold f

/-- A port is qualified (R12). -/
def PortRecord.qualified (p : PortRecord) (hold : Nat) : Bool :=
  p.state = .locked && (decide (hold ≤ p.lockedRun) || !p.usedSinceReset)

/-- R12 at a frame time: a port in use leaves use when not LOCKED, another comes into use when qualified. -/
def PortRecord.applyUse (p : PortRecord) (hold : Nat) : PortRecord :=
  if p.inUse then { p with inUse := p.state = .locked }
  else if p.qualified hold then { p with inUse := true, usedSinceReset := true }
  else p

/-! ## The wrap state (R13) -/

/-- The wrap state that the ports in use give. -/
def wrapOf (west east : Bool) : WrapState :=
  match west, east with
  | true, true => .through
  | false, true => .wrapWest
  | true, false => .wrapEast
  | false, false => .isolated

/-- The primary input (R13). -/
def WrapState.primary : WrapState → Option Port
  | .through => some .west
  | .wrapWest => some .east
  | .wrapEast => some .west
  | .isolated => none

/-- What the node's primary input holds of its frame time. -/
def Ring.arrival (r : Ring) : Port → Arrival
  | .west => r.westIn
  | .east => r.eastIn

/-- Set what a receiver holds. -/
def Ring.setArrival (r : Ring) (p : Port) (a : Arrival) : Ring :=
  match p with
  | .west => { r with westIn := a }
  | .east => { r with eastIn := a }

/-- The frame waiting at the primary input, with its port. -/
def Node.waitingFrame (n : Node) : Option (Port × Frame) :=
  match n.ring.wrap.primary with
  | none => none
  | some p =>
    match n.ring.arrival p with
    | .frame f => some (p, f)
    | .none => none
    | .taken _ => none

/-- What entering ISOLATED empties: the last-good store (R11), the relay store (R19), the window followed (R179). -/
def Node.enterIsolated (n : Node) : Node :=
  { n with
    ring := { n.ring with lastGood := List.replicate 64 0, relay := { run := none, complete := none } }
    lane := { n.lane with follow := none } }

/-- A change of wrap state and its effects (R13): claims fail (R37), and then a PORT CHANGE notice is asked for (log 48). -/
def Node.changeWrap (n : Node) (w : WrapState) : Node :=
  let old := n.ring.wrap
  if w = old then n
  else
    let n1 := { n with ring := { n.ring with wrap := w } }
    let n2 := if w = .isolated then n1.enterIsolated else n1
    n2.failAllClaims.generalNotice 0x80
      [byte old.code, byte w.code, byte n2.ring.west.state.code, byte n2.ring.east.state.code]

/-- R12 applied to both ports, and the wrap state set from the ports in use (R13). -/
def Node.applyPorts (n : Node) : Node :=
  let west := n.ring.west.applyUse n.ring.hold
  let east := n.ring.east.applyUse n.ring.hold
  { n with ring := { n.ring with west := west, east := east } }.changeWrap (wrapOf west.inUse east.inUse)

/-- The master's west transmitter mode follows the most recent good frame at the east receiver (R18). -/
def Node.turnMode (n : Node) (f : Frame) : Node :=
  if n.ring.role && f.good then
    { n with ring := { n.ring with turnRepeat := f.turned && f.master.toNat = n.address } }
  else n

/-- What a reception leaves at a receiver. -/
def Arrival.ofFrame : Option Frame → Arrival
  | some f => .frame f
  | Option.none => .none

/-- One receiver's frame time: its record and what it holds (R5-R8, R18). -/
def Node.portTick (n : Node) (p : Port) (rx : Rx) : Node :=
  let f := Frame.ofBytes rx
  match p with
  | .west => { n with ring := { n.ring with west := n.ring.west.tick n.ring.threshold f, westIn := .ofFrame f } }
  | .east =>
    let n1 := { n with ring := { n.ring with east := n.ring.east.tick n.ring.threshold f, eastIn := .ofFrame f } }
    match f with
    | some f => n1.turnMode f
    | none => n1

/-- A receiver's frame time when it has one. -/
def Node.portTickIf (n : Node) (p : Port) : Option Rx → Node
  | some rx => n.portTick p rx
  | none => n

/-- The frame time of one or both receivers, and the wrap state set once (R5-R8, R12, R13); the ring path runs while RESET_N is
held too (R195, log 25). -/
def Node.portFrame (n : Node) (west east : Option Rx) : Node := ((n.portTickIf .west west).portTickIf .east east).applyPorts

/-- One receiver's frame time. -/
def Node.onePort (n : Node) (p : Port) (rx : Rx) : Node :=
  match p with
  | .west => n.portFrame (some rx) none
  | .east => n.portFrame none (some rx)

/-! ### The events a receiver's frame time can bring, each by its own name -/

/-- The record as the frame time of `rx` will leave it, before R12. -/
def Node.portAfter (n : Node) (p : Port) (rx : Rx) : PortRecord := (n.port p).tick n.ring.threshold (Frame.ofBytes rx)

/-- The silent count reaches 8 outside NO_SIGNAL (R5). -/
def Node.bringsSilence (n : Node) (p : Port) : Bool :=
  (n.port p).state ≠ .noSignal && (n.portAfter p []).state = .noSignal

/-- The run count reaches 16 (R6). -/
def Node.bringsLock (n : Node) (p : Port) (rx : Rx) : Bool :=
  (n.port p).state = .acquiring && (n.portAfter p rx).state = .locked

/-- A check error brings a LOCKED port's window error count to the threshold (R7). -/
def Node.bringsDegrade (n : Node) (p : Port) (rx : Rx) : Bool :=
  (n.port p).state = .locked && (Frame.ofBytes rx).any (fun f => !f.good) &&
    decide (n.ring.threshold ≤ (n.port p).windowErrors + 1)

/-- The 4,800th frame time of an error window (R7). -/
def Node.bringsWindowEnd (n : Node) (p : Port) (rx : Rx) : Bool :=
  (n.port p).tracking && (n.port p).windowPos = 4799 && (n.portAfter p rx).tracking

/-- The port comes into use (R12). -/
def Node.bringsUse (n : Node) (p : Port) (rx : Rx) : Bool :=
  !(n.port p).inUse && (n.portAfter p rx).qualified n.ring.hold

/-! ## Transmitters (R14, R15) -/

/-- A silent transmitter (R14): no sequence number is held (R15). -/
def Tx.fallSilent (t : Tx) : Tx :=
  { t with source := .silent, lastSeq := none, delay := 0, store := [], out := none }

/-- The alignment delay at a change to a source whose next sequence number is `next` (R15). -/
def Tx.delayTo (t : Tx) (next : Nat) : Nat :=
  match t.lastSeq with
  | none => 0
  | some l => (next + 512 - (l + 1)) % 256

/-- The transmitter turned to a source: its store is discarded and its delay recomputed when the source is new (R15). -/
def Tx.turnTo (t : Tx) (source : TxSource) (next : Nat) : Tx :=
  if t.source = source then t
  else { t with source := source, delay := t.delayTo next, store := List.replicate (t.delayTo next) none }

/-- The frame that leaves: the one due, or a fill frame; nothing while no sequence number is known (R15). -/
def Tx.outgoing (t : Tx) (due : Option Frame) : Option Frame :=
  match due, t.lastSeq with
  | some f, _ => some f
  | none, some l => some (Frame.fill (nextSeq l) t.lastMaster)
  | none, none => none

/-- The sequence number sent with a frame: its own, or the next in order when its check fails and its number cannot be
trusted (R8, R15; log 15). A frame relayed with a recomputed check (R9) is good here, and its number is taken (log 65). -/
def Tx.sentSeq (t : Tx) (f : Frame) : Nat := if f.good then f.seq.toNat else (t.lastSeq.map nextSeq).getD f.seq.toNat

/-- A frame goes out on the link. -/
def Tx.emit (t : Tx) (f : Option Frame) : Tx :=
  match f with
  | some f => { t with lastSeq := some (t.sentSeq f), lastMaster := f.master, out := some f }
  | none => { t with out := none }

/-- One frame time of a transmitter: `feed` joins the alignment store and the frame due leaves (R15). -/
def Tx.send (t : Tx) (source : TxSource) (next : Nat) (feed : Option Frame) : Tx :=
  let u := t.turnTo source next
  match u.store ++ [feed] with
  | [] => u
  | due :: rest => { u with store := rest }.emit (u.outgoing due)

/-- A frame sent on at once, as in STARTING (R21): no alignment and no fill. -/
def Tx.forward (t : Tx) (source : TxSource) (f : Option Frame) : Tx :=
  { t with source := source, delay := 0, store := [] }.emit f

/-- The sequence number of a receiver's frame of this frame time (R4: one below the expected one). -/
def Node.portNext (n : Node) (p : Port) : Nat := ((n.port p).expected.getD 0 + 255) % 256

/-- The next generated sequence number (R15; log 15). -/
def Node.generatedSeq (n : Node) : Nat :=
  match n.ring.txEast.lastSeq with
  | some l => nextSeq l
  | none => 0

/-- The east transmitter's frame time. -/
def Node.sendEast (n : Node) (source : TxSource) (next : Nat) (feed : Option Frame) : Node :=
  { n with ring := { n.ring with txEast := n.ring.txEast.send source next feed } }

/-- The west transmitter's frame time. -/
def Node.sendWest (n : Node) (source : TxSource) (next : Nat) (feed : Option Frame) : Node :=
  { n with ring := { n.ring with txWest := n.ring.txWest.send source next feed } }

/-- The west transmitter silent (R14). -/
def Node.silenceWest (n : Node) : Node := { n with ring := { n.ring with txWest := n.ring.txWest.fallSilent } }

/-- A processed frame, or none, from the primary input `p` goes out as R14 gives: east always, and west with the turn mark
in WRAP_EAST. -/
def Node.sendProcessed (n : Node) (p : Port) (f : Option Frame) : Node :=
  let n1 := n.sendEast (.processed p) (n.portNext p) f
  if n.ring.wrap = .wrapEast then n1.sendWest (.processed p) (n.portNext p) (f.map Frame.markTurned) else n1

/-- The frames of the east receiver repeated unchanged on the west transmitter (R2, R14), by a slave or by a master in
turn-repeat mode (R18). -/
def Node.repeatEast (n : Node) (source : TxSource) : Node :=
  let feed := match n.ring.eastIn with
    | .frame f => some f
    | .none => none
    | .taken _ => none
  n.sendWest source (n.portNext .east) feed

/-- The node generates frames as a master (R17). -/
def Node.isMaster (n : Node) : Bool := n.ring.role && n.running

/-- A generated frame of the source goes out (R14, R18): east always; west by the wrap state and the master's west transmitter
mode. A master's marked frames in WRAP_EAST are a source of their own (R15, log 47). -/
def Node.sendGenerated (n : Node) (source : TxSource) (f : Frame) : Node :=
  let seq := f.seq.toNat
  let n1 := n.sendEast source seq (some f)
  match n.ring.wrap with
  | .through => if n.ring.turnRepeat && n.isMaster then n1.repeatEast .turnRepeat else n1.sendWest source seq (some f)
  | .wrapWest => n1.silenceWest
  | .wrapEast => n1.sendWest .generatedTurned seq (some f.markTurned)
  | .isolated => n1.sendWest source seq (some f)

end Sys2Proof.Machine
end

