-- ==== Sys2Proof/Machine/SlotFrames.lean ====
section
/-! DEFINITION. What a frame's slot headers do: the local slot table (R32, R33, R35, R36), the master slot register (R27,
R29), AUTO_END runs (R56), path counts (R138), and the listening store (R11). -/

namespace Sys2Proof.Machine

/-- The slot fields of a frame. -/
abbrev Headers := List SlotField

/-- One slot's field. -/
def headerOf (h : Headers) (k : Nat) : SlotField := h.getD k .empty

/-- Stamped and free (R24). -/
def SlotField.stampedFree (f : SlotField) : Bool := f.stamped && f.ownerOf = 0

/-- The last-good store takes an undamaged frame's samples (R11). -/
def Node.storeSamples (n : Node) (h : Headers) : Node :=
  { n with ring := { n.ring with lastGood := h.map (·.sample) } }

/-! ## Local slot table -/

/-- A frame under the Slot Controller's hands: the node and the slots as they will be sent. -/
structure SlotWork where
  node : Node
  sent : Headers

/-- Replace one slot of the frame. -/
def SlotWork.write (w : SlotWork) (k : Nat) (f : SlotField) : SlotWork := { w with sent := w.sent.set k f }

/-- A tentative header with the user's sample (R32). -/
def Node.tentative (n : Node) (c : Claim) : SlotField := .make n.address c.cls false true (n.userSample c.user)

/-- An owned slot: the header as received with fresh set, its reserved bits 0 (R198), and the user's sample (R35). -/
def SlotField.owned (f : SlotField) (sample : Sample) : SlotField :=
  { f with flags := (f.flags &&& 0x0F) ||| 16, sample := sample }

/-- The owner of a HELD entry writes its sample of this frame (R35). -/
def SlotWork.writeOwned (w : SlotWork) (k : Nat) (f : SlotField) : SlotWork :=
  match (w.node.entry k).state, (w.node.entry k).claim with
  | .held, some c => w.write k (f.owned (w.node.userSample c.user))
  | _, _ => w

/-- A CLAIMING entry that reads another owner (R33): the claim fails at its third loss, no release
owed (log 34), or waits in its old place. -/
def Node.slotLost (n : Node) (k : Nat) (c : Claim) : Node :=
  let n1 := n.modEntry k fun e => { e with state := .idle, claim := none }
  if 3 ≤ c.attempts + 1 then n1.tell c.user .noSlot
  else n1.setWaiting (insertByOrder { c with attempts := c.attempts + 1 } n1.slots.waiting)

/-- A CLAIMING entry reads its slot (R33); a confirmed claim keeps its attempt count (log 51). -/
def SlotWork.claiming (w : SlotWork) (k : Nat) (f : SlotField) (c : Claim) : SlotWork :=
  if !f.stamped then w
  else if f.ownerOf = w.node.address then
    let n1 := (w.node.modEntry k fun e => { e with state := .held }).tell c.user (.confirmed k)
    { w with node := n1 }.writeOwned k f
  else if f.ownerOf = 0 then w.write k (w.node.tentative c)
  else { w with node := w.node.slotLost k c }

/-- A HELD entry reads its slot (R35). -/
def SlotWork.held (w : SlotWork) (k : Nat) (f : SlotField) (c : Claim) : SlotWork :=
  if !f.stamped then w
  else if f.ownerOf = w.node.address then w.writeOwned k f
  else
    { w with node := (w.node.modEntry k fun e => { e with state := .idle, claim := none }).tell c.user .lost }

/-- Clear a release owed (R36). -/
def Node.clearOwed (n : Node) (k : Nat) : Node := n.modEntry k fun e => { e with owed := 0 }

/-- An entry with release owed reads its slot (R36). -/
def SlotWork.owing (w : SlotWork) (k : Nat) (f : SlotField) : SlotWork :=
  if !f.stamped ∨ f.ownerOf = 0 then w
  else if f.ownerOf = w.node.address then { w with node := w.node.clearOwed k }.write k .empty
  else { w with node := w.node.clearOwed k }

/-- Step 1 of R32 for one entry, with the headers `h` as they arrived. -/
def SlotWork.entryStep (h : Headers) (w : SlotWork) (k : Nat) : SlotWork :=
  let e := w.node.entry k
  match e.state, e.claim with
  | .claiming, some c => w.claiming k (headerOf h k) c
  | .held, some c => w.held k (headerOf h k) c
  | _, _ => if e.owed = 0 then w else w.owing k (headerOf h k)

/-- A slot a pending claim may take (R32). -/
def Node.canTake (n : Node) (h : Headers) (k : Nat) : Bool :=
  (headerOf h k).stampedFree && (n.entry k).state = .idle && (n.entry k).owed = 0

/-- Step 2 of R32 for one pending claim. -/
def SlotWork.search (h : Headers) (w : SlotWork) (c : Claim) : SlotWork :=
  match (poolOrder c.cls).find? (w.node.canTake h) with
  | none => w
  | some k =>
    let n1 := w.node.setWaiting (w.node.slots.waiting.filter fun d => d.user != c.user)
    { w with node := n1.modEntry k fun e => { e with state := .claiming, claim := some c } }.write k (n1.tentative c)

/-- Both steps of R32 at an undamaged frame; the entries of step 1 in ascending slot order (log 52). -/
def Node.slotFrame (n : Node) (h : Headers) : SlotWork :=
  let w := (List.range 64).foldl (SlotWork.entryStep h) { node := n, sent := h }
  w.node.slots.waiting.foldl (SlotWork.search h) w

/-- The master's own slots in a generated frame (R28, R17); an entry stays HELD when its register entry is freed (log 35). -/
def Node.ownSlots (n : Node) (h : Headers) : Headers :=
  ((List.range 64).foldl (fun (w : SlotWork) k => w.writeOwned k (headerOf w.sent k)) { node := n, sent := h }).sent

/-! ## The master slot register -/

/-- A register entry counts a missing write (R29). -/
def Node.orphanStep (n : Node) (k : Nat) (fresh : Bool) : Node :=
  let e := n.reg k
  if fresh then n.setReg k { e with orphan := 0 }
  else if n.ring.orphanLimit ≤ e.orphan + 1 then
    (n.setReg k .reset).generalNotice 0x82 [byte k, byte e.owner, byte e.cls]
  else n.setReg k { e with orphan := e.orphan + 1 }

/-- The register handles one header of an undamaged returned frame (R27). -/
def Node.registerStep (h : Headers) (n : Node) (k : Nat) : Node :=
  let f := headerOf h k
  let e := n.reg k
  if f.stamped then (if e.owner = 0 then n else n.orphanStep k f.fresh)
  else if f.ownerOf = 0 then n.setReg k .reset
  else if e.owner = 0 ∧ (k < 56 ∨ 6 ≤ f.classOf) then n.setReg k { owner := f.ownerOf, cls := f.classOf, orphan := 0 }
  else n

/-- The register handles every header (R27), in ascending slot order (log 60). -/
def Node.registerFrame (n : Node) (h : Headers) : Node := (List.range 64).foldl (Node.registerStep h) n

/-- The headers that the register gives to a generated frame, with the last-good samples (R17). -/
def Node.registerHeaders (n : Node) : Headers :=
  (List.range 64).map fun k => .make (n.reg k).owner (n.reg k).cls true false (n.ring.lastGood.getD k 0)

/-! ## AUTO_END and path counts -/

/-- The end of an AUTO_END run (R56). -/
def Node.autoEndNow (n : Node) (id : Nat) : Node := (n.beginEnd id .autoEnd).popAll id

/-- An AUTO_END binding whose run is counted, with its slot: an UNBIND under way stops the count (R56). -/
def Binding.runSlot (b : Binding) : Option Nat :=
  match b.source with
  | .ring k => if b.autoEnd && b.ending ≠ .unbound then some k else none
  | .input _ => none
  | .player _ => none
  | .alarm _ => none
  | .callTone => none

/-- One binding's free run at a frame: 0–48 (R49), and the end at 48 unless it has begun already (R56). -/
def Node.freeRunStep (h : Headers) (n : Node) (id : Nat) : Node :=
  match n.binding id with
  | none => n
  | some b =>
    match b.runSlot with
    | none => n
    | some k =>
      if (headerOf h k).stampedFree then
        let n1 := n.modBinding id fun b => { b with freeRun := min 48 (b.freeRun + 1) }
        if 48 ≤ b.freeRun + 1 ∧ b.ending = .none then n1.autoEndNow id else n1
      else n.modBinding id fun b => { b with freeRun := 0 }

/-- Every free run at a frame (R56), in ascending order of ids (log 60). -/
def Node.freeRuns (n : Node) (h : Headers) : Node := (List.range 64).foldl (Node.freeRunStep h) n

/-- The record supervises its listen slot (R138). -/
def CallRecord.supervises (c : CallRecord) : Bool :=
  match c.role with
  | .caller => c.state = .alerting || c.state = .connected
  | .callee => c.state = .claiming || c.state = .ringing || c.state = .connected
  | .absent => false

/-- The header shows the listen slot free or another's (R138). -/
def CallRecord.slotGone (c : CallRecord) (f : SlotField) : Bool := f.stamped && c.remote != some f.ownerOf

/-- One record's path count at a frame (R138); a record whose state has changed in this frame time keeps it. -/
def Node.pathStep (h : Headers) (n : Node) (r : Nat) : Node :=
  let c := n.call r
  match c.listen with
  | none => n
  | some k =>
    let f := headerOf h k
    if !c.supervises ∨ c.changed ∨ !f.stamped then n
    else if c.slotGone f then
      let n1 := n.modCall r fun c => { c with path := c.path + 1 }
      if 48 ≤ c.path + 1 then n1.callEnd r .pathLost .here else n1
    else n.modCall r fun c => { c with path := 0 }

/-- Every path count at a frame (R138), in ascending order of records (log 60). -/
def Node.pathCounts (n : Node) (h : Headers) : Node := (List.range 8).foldl (Node.pathStep h) n

end Sys2Proof.Machine
end

