-- ==== Sys2Proof/Machine/Lanes.lean ====
section
/-! DEFINITION. The Lane Controller's work on windows (10 sections 10.1 and 10.2): following (R179), reception (R181),
insertion (R182), stripping (R183), the master's returned and generated windows (R184, R19), delivery outcomes (R140). -/

namespace Sys2Proof.Machine

/-! ## Delivery outcomes (R140) -/

/-- A RINGING or ANSWERED came back with this verdict (R140); it must belong to the present call of a CALLEE record. -/
def Node.deliveryOutcome (n : Node) (p : Packet) (d : Delivery) : Node :=
  let id := byteAt p.payload 1
  let r := id % 8
  let c := n.call r
  if (p.kind = 0x91 ∨ p.kind = 0x92) ∧ c.state ≠ .idle ∧ c.role = .callee ∧ callIdOf r c = id then
    match d with
    | .copied =>
      let n1 := n.modCall r fun c => { c with outstanding := .none }
      if p.kind = 0x91 ∧ c.answerPending then n1.carryOutAnswer r else n1
    | .refused =>
      if c.resends < 4 then (n.modCall r fun c => { c with resends := c.resends + 1 }).sendTied r false p
      else n.callEnd r .noRoute .here
    | .none => n.callEnd r .noRoute .here
  else n

/-! ## Windows -/

/-- What the Lane Controller did with a frame's eight control-lane bytes; `restarts`: the insertion of the RESTART
response completed (R195). -/
structure LaneStep where
  node : Node
  bytes : List Byte
  restarts : Bool

/-- A step that changes no packet. -/
def laneStep (n : Node) (bytes : List Byte) : LaneStep := ⟨n, bytes, false⟩

/-- Replace the followed window. -/
def Node.setFollow (n : Node) (f : Option Follow) : Node := { n with lane := { n.lane with follow := f } }

/-- The next position of a followed window, or the end of it. -/
def Follow.advance (f : Follow) (bytes : List Byte) (whole : Bool) : Option Follow :=
  if f.next < 7 then some { f with next := f.next + 1, bytes := f.bytes ++ bytes, whole := whole } else none

/-- A frame time that leaves a followed window not whole: held, missing or out of sequence (R179). -/
def Node.laneMissed (n : Node) (bytes : List Byte) : Node := n.setFollow (n.lane.follow.bind fun f => f.advance bytes false)

/-- A destination names this node (R181). -/
def Node.addressed (n : Node) (dest : Nat) : Bool :=
  dest = n.address || dest = 255 || (240 ≤ dest && dest ≤ 254 && n.lane.groups.getLsbD (dest - 240))

/-- What the node does with a window, from its position-0 frame (R181-R184). -/
def Node.windowJob (n : Node) (lane : List Byte) : WindowJob :=
  let mine := byteAt lane 2 = n.address
  match Occupancy.ofByte (lane.getD 0 0) with
  | .empty =>
    if n.ring.role then .pass
    else match n.lane.outbound with
      | [] => .pass
      | p :: _ => .insert p.window
  | .full => if mine then .strip else .receive
  | .fullSeen => if mine then .strip else if n.ring.role then .discard else .receive

/-- The bytes of position `j` under a job, but for the last position of a strip or a reception (R182-R184). -/
def WindowJob.write (w : WindowJob) (j : Nat) (lane : List Byte) : List Byte :=
  match w with
  | .pass => lane
  | .receive => lane
  | .strip => List.replicate 8 0
  | .discard => List.replicate 8 0
  | .insert b => slice b (8 * j) 8

/-- The master marks a received window FULL_SEEN (R184). -/
def markSeen (role : Bool) (job : WindowJob) (lane : List Byte) : List Byte :=
  if role ∧ job = .receive then Occupancy.fullSeen.byte :: lane.drop 1 else lane

/-- A window is followed from an undamaged frame at position 0 (R179). -/
def Node.laneStart (n : Node) (seq : Nat) (lane : List Byte) : LaneStep :=
  let job := n.windowJob lane
  laneStep (n.setFollow (some { window := seq / 8, next := 1, bytes := lane, whole := true, job := job }))
    (markSeen n.ring.role job (job.write 0 lane))

/-- The head of the outbound queue has left (R182). -/
def Node.popOutbound (n : Node) : Node := { n with lane := { n.lane with outbound := n.lane.outbound.tail } }

/-- A packet is the response of a RESTART that was taken: OK, without results (R195). -/
def Packet.restartsNode (p : Packet) : Bool := p.kind = 0x46 && p.payload = [byte Status.ok.code]

/-- The head of the outbound queue is the RESTART response of a RESTART under way (R195). -/
def Node.headRestarts (n : Node) : Bool := n.mgmt.restart.isSome && n.lane.outbound.head?.any Packet.restartsNode

/-- A refusal for want of room or of wholeness (R181). -/
def Node.refuse (n : Node) (lane : List Byte) : LaneStep :=
  laneStep { n with lane := { n.lane with refused := min 65535 (n.lane.refused + 1) } } (lane.take 7 ++ [Delivery.refused.byte])

/-- A packet is copied into the inbound queue (R181). -/
def Node.copyPacket (n : Node) (p : Packet) : Node := { n with lane := { n.lane with inbound := n.lane.inbound ++ [p] } }

/-- The decision of R181 at position 7; `all` is the window as it arrived. -/
def Node.receive (n : Node) (whole : Bool) (all lane : List Byte) : LaneStep :=
  let dest := byteAt all 1
  let unicast : Bool := dest = n.address
  if !n.addressed dest then laneStep n lane
  else if !whole then (if unicast then n.refuse lane else laneStep n lane)
  else
    match Packet.ofWindow all with
    | none => laneStep n lane
    | some p =>
      if Delivery.ofByte (lane.getD 7 0) = .copied then laneStep n lane
      else if n.lane.inbound.length < 4 then
        laneStep (n.copyPacket p) (if unicast then lane.take 7 ++ [Delivery.copied.byte] else lane)
      else if unicast then n.refuse lane
      else laneStep n lane

/-- The bytes of position 7 of a stripped window: byte 62 and the delivery byte are written (R183; log 16). -/
def stripEnd (lane : List Byte) : List Byte := lane.take 6 ++ [0, Delivery.none.byte]

/-- Position 7 of a followed window (R181-R184). -/
def Node.laneEnd (n : Node) (f : Follow) (lane : List Byte) : LaneStep :=
  let n1 := n.setFollow none
  let all := f.bytes ++ lane
  match f.job with
  | .pass => laneStep n1 lane
  | .receive => n1.receive f.whole all lane
  | .discard => laneStep n1 (stripEnd lane)
  | .strip =>
    let reported := if f.whole then Packet.ofWindow all else none
    match reported with
    | some p => laneStep (n1.deliveryOutcome p (Delivery.ofByte (lane.getD 7 0))) (stripEnd lane)
    | none => laneStep n1 (stripEnd lane)
  | .insert b => if f.whole then ⟨n1.popOutbound, slice b 56 8, n1.headRestarts⟩ else laneStep n1 (slice b 56 8)

/-- The frame due for the followed window (R179). -/
def Node.laneDue (n : Node) (f : Follow) (lane : List Byte) : LaneStep :=
  if f.next < 7 then laneStep (n.setFollow (f.advance lane f.whole)) (f.job.write f.next lane) else n.laneEnd f lane

/-- The Lane Controller's work on an undamaged frame (R179); a frame out of sequence goes on as received (log 17). -/
def Node.laneFrame (n : Node) (seq : Nat) (lane : List Byte) : LaneStep :=
  match n.lane.follow with
  | some f =>
    if seq = 8 * f.window + f.next then n.laneDue f lane
    else if seq % 8 = 0 then n.laneStart seq lane
    else laneStep (n.laneMissed lane) lane
  | none => if seq % 8 = 0 then n.laneStart seq lane else laneStep n lane

/-! ## The relay store (R19) -/

/-- The window followed is one that the master empties on this pass (R184). -/
def Node.emptying (n : Node) : Bool := n.lane.follow.any fun f => f.job = .strip || f.job = .discard

/-- The run that a returned frame leaves: it begins at position 0, goes on in order, or breaks (R19). -/
def RelayRun.feed (run : Option RelayRun) (seq : Nat) (lane : List Byte) (emptied : Bool) : Option RelayRun :=
  if seq % 8 = 0 then some { window := seq / 8, bytes := lane, emptied := emptied }
  else
    match run with
    | some r =>
      if r.window = seq / 8 ∧ r.bytes.length = 8 * (seq % 8) then
        some { r with bytes := r.bytes ++ lane, emptied := r.emptied || emptied }
      else none
    | none => none

/-- A returned frame's bytes, as the Lane Controller left them, go into the relay store (R19). -/
def Node.relayFeed (n : Node) (seq : Nat) (lane : List Byte) (emptied : Bool) : Node :=
  let run := RelayRun.feed n.ring.relay.run seq lane emptied
  if run.any fun r => r.bytes.length = 64 then
    { n with ring := { n.ring with relay := { run := none, complete := run } } }
  else { n with ring := { n.ring with relay := { n.ring.relay with run := run } } }

/-- A missing, foreign or address-0 frame breaks the run (R19). -/
def Node.relayBreak (n : Node) : Node := { n with ring := { n.ring with relay := { n.ring.relay with run := none } } }

/-- The relay store emptied (R19, R20), and with it the window being generated: up to the next window the generated lane is 0, and
a packet half inserted stays at the head (log 67). -/
def Node.relayEmpty (n : Node) : Node :=
  { n with ring := { n.ring with
      relay := { run := none, complete := none }, genWindow := { bytes := List.replicate 64 0, inserting := false } } }

/-! ## Generated windows (R19, R184) -/

/-- The window of a generated sequence number divisible by 8: the complete relay store or an EMPTY window, with the
master's own packet inserted when the window is EMPTY and was not emptied by the master on this pass (R19, R182, R184). -/
def Node.openWindow (n : Node) : Node :=
  let stored : RelayRun :=
    n.ring.relay.complete.getD { window := 0, bytes := List.replicate 64 0, emptied := false }
  let free : Bool := Occupancy.ofByte (stored.bytes.getD 0 0) = .empty && !stored.emptied && n.ring.wrap ≠ .isolated
  let g : GenWindow := match n.lane.outbound with
    | [] => { bytes := stored.bytes, inserting := false }
    | p :: _ => if free then { bytes := p.window, inserting := true } else { bytes := stored.bytes, inserting := false }
  { n with ring := { n.ring with genWindow := g, relay := { n.ring.relay with complete := none } } }

/-- The control lane of the generated frame `seq` (R19, R184). -/
def Node.generateLane (n : Node) (seq : Nat) : LaneStep :=
  let n1 := if seq % 8 = 0 then n.openWindow else n
  let bytes := slice n1.ring.genWindow.bytes (8 * (seq % 8)) 8
  if seq % 8 = 7 ∧ n1.ring.genWindow.inserting then
    ⟨{ n1.popOutbound with ring := { n1.ring with genWindow := { n1.ring.genWindow with inserting := false } } }, bytes,
      n1.headRestarts⟩
  else laneStep n1 bytes

end Sys2Proof.Machine
end

