-- ==== Sys2Proof/Machine/Startup.lean ====
section
/-! DEFINITION. Resets and the start-up sequence (R178, R195, R196, R122). -/

namespace Sys2Proof.Machine

/-- A strap reading is a node address (R17, R196). -/
def isAddress (a : Nat) : Bool := 1 ≤ a && a ≤ 239

/-- The flash head's running phase is abandoned by a reset (R166, R178). -/
def Node.abandonHead (n : Node) : Node :=
  match n.library.ops with
  | [] => n
  | op :: _ => n.abandonPhase op

/-- Frame time 0 of a reset: every block takes its reset values, flash is kept but for an abandoned phase, the straps are
read, the role flag is set as R17 gives and the signal sector is loaded (R178, R195, R196). -/
def Node.resetWith (n : Node) (cause : ResetCause) (pins : Pins) (held : Bool) : Node :=
  let kept := n.abandonHead
  let base : Node := { Node.reset with
    ring := { Ring.reset with role := pins.fmstr && isAddress pins.address }
    library := { Library.reset with flash := kept.library.flash }
    mgmt := { Mgmt.reset with address := pins.address, fmstr := pins.fmstr, cause := cause, held := held }
    pins := pins
    freeCount := kept.freeCount }
  base.loadSignalSector

/-- The reset of a RESTART (R195). -/
def Node.restartReset (n : Node) : Node := n.resetWith .command n.pins false

/-- The frames on the links of the present frame time, kept where a reset follows the sending in one event. -/
def Node.withLinks (n old : Node) : Node :=
  { n with ring := { n.ring with
      txEast := { n.ring.txEast with out := old.ring.txEast.out }
      txWest := { n.ring.txWest with out := old.ring.txWest.out } } }

/-- A RESET_N assertion records PIN, and POWER while the start-up of a power-on reset is under way (R195, log 25). -/
def Node.pinCause (n : Node) : ResetCause :=
  if n.mgmt.node = .starting ∧ n.mgmt.cause = .power then .power else .pin

/-- The node leaves STARTING (R196), with one alarm recomputation (R122). -/
def Node.leave (n : Node) : Node :=
  { n with mgmt := { n.mgmt with node := if isAddress n.mgmt.address then .running else .noAddress } }.alarmEvent

/-- Start-up runs: STARTING with RESET_N released. -/
def Node.startingUp (n : Node) : Bool := n.mgmt.node = .starting && !n.mgmt.held

/-- The start-up work of frame time `counter`: the config image in the second frame time, then the end of STARTING. -/
def Node.startStep (n : Node) : Node :=
  if n.startingUp then
    if !n.mgmt.configRead then (if 1 ≤ n.ring.counter then n.loadConfig else n)
    else if 2 ≤ n.ring.counter then n.leave
    else n
  else n

end Sys2Proof.Machine
end

