-- ==== Sys2Proof/Machine/Frames.lean ====
section
/-! DEFINITION. A frame from the primary input (R2, R9, R10, R18, R20, R21): at a slave, at the master, while STARTING. -/

namespace Sys2Proof.Machine

/-! ## The alarm word (R97) -/

/-- One alarm word read (R97): a confirmation that changes the confirmed word is a change event. -/
def Node.readWord (n : Node) (w : AlarmWord) : Node :=
  if !w.set then n
  else if w = n.alarm.candidate then
    if w = n.alarm.confirmed then n
    else
      { n with alarm := { n.alarm with confirmed := w } }.changeAndRecompute
        { source := .ring, code := w.code, mask := w.mask, issuer := w.issuer, stamp := n.ring.counter }
  else { n with alarm := { n.alarm with candidate := w } }

/-! ## Foreign frames (R20) -/

/-- A foreign frame (R20). -/
def Node.isForeign (n : Node) (f : Frame) : Bool :=
  n.mgmt.fmstr && f.undamaged && f.master ≠ 0 && f.master.toNat ≠ n.address

/-- A foreign frame to which the master yields (R20). -/
def Node.yieldsTo (n : Node) (f : Frame) : Bool := n.isMaster && n.isForeign f && decide (f.master.toNat < n.address)

/-- The frame makes its frame time a held one: it is damaged or bad (R10), or a master discards it (R18, R20). -/
def Node.holdsTime (n : Node) (f : Frame) : Bool :=
  !f.undamaged || (n.isMaster && decide (f.master.toNat ≠ n.address) && !n.yieldsTo f)

/-- What a primary input holds makes its frame time a held one: no frame, a frame that makes it so, or one that has made it so
(R10). -/
def Node.arrivalHolds (n : Node) : Arrival → Bool
  | .none => true
  | .frame f => n.holdsTime f
  | .taken held => held

/-- The node's frame time is a held one, by what its primary input holds (R10). -/
def Node.heldTime (n : Node) : Bool := n.ring.wrap.primary.any fun p => n.arrivalHolds (n.ring.arrival p)

/-- A foreign frame sets the quiet count to 0 (R20). -/
def Node.hearForeign (n : Node) : Node := { n with ring := { n.ring with quiet := 0 } }

/-- The DUAL MASTER notice of the first foreign frame after a quiet second (R20); outcome YIELDED 0, KEPT 1 (log 13). -/
def Node.dualMaster (n : Node) (outcome : Nat) (f : Frame) : Node :=
  if n.ring.quiet = 48000 then n.generalNotice 0x81 [byte outcome, byte n.address, f.master] else n

/-- A HELD entry of a node that yields or resumes: IDLE, and LOST told to its user (R38). -/
def Node.loseHeld (n : Node) (k : Nat) : Node :=
  match (n.entry k).state, (n.entry k).claim with
  | .held, some c => (n.modEntry k fun e => { e with state := .idle, claim := none }).tell c.user .lost
  | _, _ => n

/-- Every HELD entry lost (R38), in ascending slot order (log 53). -/
def Node.loseAllHeld (n : Node) : Node := (List.range 64).foldl Node.loseHeld n

/-- The register emptied (R20, R26). -/
def Node.emptyRegister (n : Node) : Node :=
  { n with slots := { n.slots with register := n.slots.register.map fun _ => .reset } }

/-- The master yields (R20, R38, R95). -/
def Node.yieldRole (n : Node) : Node :=
  let n1 := { n with ring := { n.ring with role := false }, alarm := { n.alarm with source := .none } }
  n1.emptyRegister.relayEmpty.loseAllHeld

/-! ## The frame at a slave -/

/-- An undamaged frame that a slave processes and sends on (R2). NO_ADDRESS writes no slot and no lane (R21).
Path counts come before the delivery outcomes of the lane (R144; log 39). -/
def Node.slaveFrame (n : Node) (p : Port) (f : Frame) : Node :=
  let n1 := (n.storeSamples f.slots).readWord f.word
  if n1.running then
    let w := n1.slotFrame f.slots
    let n2 := (w.node.freeRuns f.slots).pathCounts f.slots
    let l := n2.laneFrame f.seq.toNat f.lane
    let n3 := l.node.sendProcessed p (some (Frame.seal { f with slots := w.sent, lane := l.bytes }))
    if l.restarts then n3.restartReset.withLinks n3 else n3
  else ((n1.freeRuns f.slots).pathCounts f.slots).sendProcessed p (some f)

/-- A held frame time in which a frame arrived at a slave (R9, R10); its sequence number counts as the last one sent
(log 65). -/
def Node.heldFrame (n : Node) (p : Port) (f : Frame) : Node := (n.laneMissed f.lane).sendProcessed p (some f.markDamaged)

/-- A frame at a node that relays it. -/
def Node.relayFrame (n : Node) (p : Port) (f : Frame) : Node :=
  if f.undamaged then n.slaveFrame p f else n.heldFrame p f

/-! ## The frame at the master -/

/-- A returned frame (R18): undamaged, it feeds four blocks in the order of log 60; damaged, it feeds the relay store
alone (R19). -/
def Node.returned (n : Node) (f : Frame) : Node :=
  let seq := f.seq.toNat
  if f.undamaged then
    let n1 := ((n.registerFrame f.slots).readWord f.word).storeSamples f.slots
    let l := n1.laneFrame seq f.lane
    l.node.relayFeed seq l.bytes (if seq % 8 = 0 then l.node.emptying else n1.emptying)
  else (n.laneMissed f.lane).relayFeed seq f.lane false

/-- A frame that the master discards makes a held frame time (R18, R20). -/
def Node.discardFrame (n : Node) (f : Frame) : Node := (n.laneMissed f.lane).relayBreak

/-- A frame at the primary input of a master (R18, R20); at a yield DUAL MASTER goes ahead of what the lost HELD entries
report (log 49). -/
def Node.masterFrame (n : Node) (p : Port) (f : Frame) : Node :=
  if n.isForeign f then
    if n.yieldsTo f then ((n.dualMaster 0 f).hearForeign.yieldRole).relayFrame p f
    else (n.dualMaster 1 f).hearForeign.discardFrame f
  else if f.master.toNat = n.address then n.returned f
  else n.discardFrame f

/-! ## The frame while STARTING (R21) -/

/-- A frame goes on unchanged and at once, but not from a master (R21). -/
def Node.forwardFrame (n : Node) (p : Port) (f : Frame) : Node :=
  if n.ring.role then n
  else
    let n1 := { n with ring := { n.ring with txEast := n.ring.txEast.forward (.processed p) (some f) } }
    if n1.ring.wrap = .wrapEast then
      { n1 with ring := { n1.ring with txWest := n1.ring.txWest.forward (.processed p) (some f) } }
    else n1

/-- A frame while STARTING (R21): the last-good store runs, a foreign frame is heard (R20), and the frame goes on. -/
def Node.startingFrame (n : Node) (p : Port) (f : Frame) : Node :=
  let n1 := if f.undamaged then n.storeSamples f.slots else n
  (if n1.isForeign f then n1.hearForeign else n1).forwardFrame p f

/-! ## The frame waiting at the primary input -/

/-- The frame is taken whole and processed by the blocks (R2), or forwarded alone while RESET_N is held (R195, log 25). -/
def Node.takeFrame (n : Node) (p : Port) (f : Frame) : Node :=
  let n1 := { n with ring := n.ring.setArrival p (.taken (n.holdsTime f)) }
  if n1.mgmt.held then n1.forwardFrame p f
  else if n1.mgmt.node = .starting then n1.startingFrame p f
  else if n1.isMaster then n1.masterFrame p f
  else (if n1.isForeign f then n1.hearForeign else n1).relayFrame p f

/-- PROCESS_FRAME: the waiting frame, if there is one (log 5). -/
def Node.processWaiting (n : Node) : Node :=
  match n.waitingFrame with
  | some (p, f) => n.takeFrame p f
  | none => n

/-- RETURNED_FRAME: the waiting frame, at a master, when it carries the node's own address (R18). -/
def Node.returnedWaiting (n : Node) : Node :=
  match n.waitingFrame with
  | some (p, f) => if n.isMaster && f.master.toNat = n.address then n.takeFrame p f else n
  | none => n

/-! ## Resuming the master role (R20, R38) -/

/-- The node can resume once its quiet count is full (R20). -/
def Node.mayResume (n : Node) : Bool := n.mgmt.fmstr && !n.ring.role && n.running

/-- A CLAIMING entry at a resumption fails with no release owed, and no release stays owed (R38). -/
def SlotEntry.resume (e : SlotEntry) : SlotEntry :=
  if e.state = .claiming then { state := .idle, claim := none, owed := 0 } else { e with owed := 0 }

/-- A claim still pending is decided by R28 (R38). -/
def Node.decidePending (n : Node) (c : Claim) : Node :=
  if n.slots.waiting.contains c then
    let n1 := n.setWaiting (n.slots.waiting.filter fun d => d.user != c.user)
    (n1.masterClaim c.user c.cls).1.tell c.user (n1.masterClaim c.user c.cls).2
  else n

/-- The node resumes mastering (R20, R38): LOST and then NO_SLOT are told in ascending slot order (log 53). -/
def Node.resume (n : Node) : Node :=
  let claiming := (n.slots.table.filter fun e => e.state = .claiming).filterMap (·.claim)
  let n1 := { n with
    ring := { n.ring with role := true, turnRepeat := false, quiet := 48000 } }.emptyRegister.relayEmpty.loseAllHeld
  let n2 := { n1 with slots := { n1.slots with table := n1.slots.table.map SlotEntry.resume } }
  let n3 := claiming.foldl (fun (n : Node) c => n.tell c.user .noSlot) n2
  n3.slots.waiting.foldl Node.decidePending n3

end Sys2Proof.Machine
end

