-- ==== Sys2Proof/Machine/Mix.lean ====
section
/-! DEFINITION. Tone generators and channel outputs (R108, R109, R111), contacts (R99), and the zone computation (R81-R94). -/

namespace Sys2Proof.Machine

/-! ## Tone generators (R108, R109) -/

/-- The record a generator plays. -/
def Alarm.signalOf (a : Alarm) (s : Nat) : Signal := a.signals.getD s fallbackSignal

/-- The step a generator stands at. -/
def Generator.stepOf (g : Generator) (s : Signal) : SignalStep := s.steps.getD g.step ⟨0, 0, 10⟩

/-- The output of a RUNNING generator (R108). -/
def Generator.sample (g : Generator) (st : SignalStep) : Sample :=
  if st.hz = 0 then 0 else scaleSample (BitVec.ofInt 24 (sine (g.phase.toNat / 65536))) st.level

/-- The step after the last of a signal (R109); an ENDED generator keeps the step (log 70). -/
def Generator.wrap (g : Generator) (s : Signal) : Generator :=
  match s.loop with
  | some l => { g with step := l }
  | none => { g with state := .ended }

/-- The generator moves to the next step (R109). -/
def Generator.nextStep (g : Generator) (s : Signal) : Generator :=
  if g.step + 1 < s.steps.length then { g with timer := 0, step := g.step + 1 } else { g with timer := 0 }.wrap s

/-- The coming output is the last of its step (R109). -/
def Generator.stepDue (g : Generator) (s : Signal) : Bool :=
  g.state = .running && decide ((g.stepOf s).ms * 48 ≤ g.timer + 1)

/-- A generator's frame time (R108): output, phase, cadence. -/
def Generator.tick (g : Generator) (s : Signal) : Generator :=
  if g.state = .running then
    let st := g.stepOf s
    let moved := { g with
      out := g.sample st
      phase := g.phase + BitVec.ofNat 24 (if st.hz = 0 then 0 else phaseIncrement st.hz) }
    if g.stepDue s then moved.nextStep s else { moved with timer := g.timer + 1 }
  else { g with out := 0 }

/-- The output of an alarm channel for this frame time (R111); `voice` is P1's sample scaled by the message's trim. -/
def Channel.output (c : Channel) (voice : Sample) : Sample :=
  match c.phase with
  | .idle => 0
  | .signal => c.gen.out
  | .voice => voice
  | .draining => c.gen.out

/-- P1's output scaled by the trim of the message it serves (R111). -/
def Node.voiceSample (n : Node) : Sample :=
  match (n.player 1).voice with
  | some v => scaleSample (n.player 1).out v.trim
  | none => 0

/-- A channel's output without a generator step, as VOICE gives it. -/
def Node.latchChannel (n : Node) (a : Nat) : Node := n.modChannel a fun c => { c with out := c.output n.voiceSample }

/-- A channel's frame time: its generator, then its output. -/
def Node.channelTick (n : Node) (a : Nat) : Node :=
  (n.modChannel a fun c => { c with gen := c.gen.tick (n.alarm.signalOf c.gen.signal) }).latchChannel a

/-- The call-tone generator's frame time (R110). -/
def Node.callToneTick (n : Node) : Node :=
  { n with alarm := { n.alarm with callGen := n.alarm.callGen.tick (n.alarm.signalOf n.alarm.callGen.signal) } }

/-- A generator's frame time, by name. -/
def Node.genTick (n : Node) : Gen → Node
  | .channel a => n.channelTick a
  | .callTone => n.callToneTick

/-- A generator by name. -/
def Node.generator (n : Node) : Gen → Generator
  | .channel a => (n.channel a).gen
  | .callTone => n.alarm.callGen

/-! ## Contacts (R98, R99, R100) -/

/-- The pin of an enabled contact reads differently from its taken state (R99). -/
def Node.contactDiffers (n : Node) (k : Nat) : Bool :=
  let c := n.contact k
  let level := if k = 0 then n.pins.contact0 else n.pins.contact1
  c.enabled && ((level == c.activeHigh) != c.asserted)

/-- The taken state changes, which is a change event with the run stamp (R99, R100). -/
def Node.contactChange (n : Node) (k : Nat) : Node :=
  let c := n.contact k
  (n.modContact k fun c => { c with asserted := !c.asserted, run := 0 }).changeAndRecompute
    { source := contactSource k, code := if c.asserted then 0 else c.code, mask := c.mask, issuer := 0, stamp := c.stamp }

/-- One reading of a contact (R99). -/
def Node.contactRead (n : Node) (k : Nat) : Node :=
  let c := n.contact k
  if !c.enabled then n
  else if !n.contactDiffers k then n.modContact k fun c => { c with run := 0 }
  else if c.run = 0 then n.modContact k fun c => { c with run := 1, stamp := n.ring.counter }
  else if 960 ≤ c.run + 1 then n.contactChange k
  else n.modContact k fun c => { c with run := c.run + 1 }

/-! ## Ramps (R82-R84) -/

/-- The volume ramp of a zone (R82). -/
def Zone.rampVolume (r : Zone) : Zone :=
  if r.vol = r.volTarget then { r with volCount := 0 }
  else if 12 ≤ r.volCount + 1 then { r with volCount := 0, vol := if r.vol < r.volTarget then r.vol + 1 else r.vol - 1 }
  else { r with volCount := r.volCount + 1 }

/-- The duck ramp of a layer (R83). -/
def Layer.rampDuck (l : Layer) : Layer :=
  if l.target < l.duck then { l with duck := l.duck - 1, duckCount := 0 }
  else if l.duck < l.target then
    if 24 ≤ l.duckCount + 1 then { l with duck := l.duck + 1, duckCount := 0 } else { l with duckCount := l.duckCount + 1 }
  else { l with duckCount := 0 }

/-- The fade of a RELEASING layer after its next fall (R84). -/
def Layer.fallen (l : Layer) : Int := max fadeBottom (l.fade - 4)

/-- The fade ramp of a layer (R84). -/
def Layer.rampFade (l : Layer) : Layer :=
  match l.state with
  | .active => { l with fade := min 0 (l.fade + 4) }
  | .held => { l with fade := fadeBottom }
  | .releasing => { l with fade := l.fallen }

/-- The next fall removes the layer (R77). -/
def Layer.endDue (l : Layer) : Bool := l.state = .releasing && !l.fresh && l.fallen = fadeBottom

/-- A layer's ramps in zone `z`; a fade set by an event of this frame time takes no step (R84). -/
def Node.rampLayer (n : Node) (z : Nat) (l : Layer) : Layer :=
  let d := if n.took (.duck z l.binding) then l else l.rampDuck
  if l.fresh then { d with fresh := false } else d.rampFade

/-! ## Levels and contributions (R86-R93) -/

/-- The source sample of a binding (R87, R88). -/
def Node.sourceSample (n : Node) (s : Source) : Sample :=
  match s with
  | .ring k => if n.ring.wrap = .isolated || !n.started then 0 else n.ring.lastGood.getD k 0
  | .input i => n.pins.lanes.getD i 0
  | .player p => if (n.player p).voice.isSome then 0 else (n.player p).out
  | .alarm a => (n.channel a).out
  | .callTone => n.alarm.callGen.out

/-- The volume term (R86). -/
def Zone.volumeTerm (r : Zone) (rule : VolumeRule) : Int :=
  match rule with
  | .zone => r.vol
  | .floor => max r.vol r.floor
  | .fixed => 0

/-- The contribution of a layer with the given source sample, gain and volume term (R89-R91), 0 from a layer popped while
HELD (R55). -/
def Layer.contribution (l : Layer) (s : Sample) (gain volume : Int) : Int :=
  let level := gain + volume + l.duck + l.fade
  if l.state = .held ∨ l.silent = true ∨ l.duck = mute ∨ level < -384 then 0 else scale s.toInt (min 32 level)

/-- The contribution of a layer of zone record `r`. -/
def Node.contributionOf (n : Node) (r : Zone) (l : Layer) : Int :=
  match n.binding l.binding with
  | some b => l.contribution (n.sourceSample b.source) b.gain (r.volumeTerm (n.classRecord l.cls).volume)
  | none => 0

/-- The accumulator of a zone (R92). -/
def Node.accumulate (n : Node) (z : Nat) : Int := ((n.stack z).map (n.contributionOf (n.zone z))).foldl (· + ·) 0

/-- The clamp of R93. -/
def clampSample (x : Int) : Int := clampInt (-8388608) 8388607 x

/-- The output sample and the clip count of a zone computation (R93). -/
def Zone.emit (r : Zone) (acc : Int) : Zone :=
  { r with
    out := BitVec.ofInt 24 (clampSample acc)
    clips := if clampSample acc = acc then r.clips else min 65535 (r.clips + 1) }

/-! ## The zone computation (R81) -/

/-- Step 1: ramps. -/
def Node.zoneRamps (n : Node) (z : Nat) : Node :=
  n.modZone z fun r =>
    let v := if n.took (.volume z) then r else r.rampVolume
    { v with stack := r.stack.map (n.rampLayer z) }

/-- The layers that step 2 removes, top first (log 56): RELEASING ones whose fall leaves them at -384 (R77). -/
def Node.fadedOut (n : Node) (z : Nat) : List Nat := ((n.stack z).filter Layer.endDue).map (·.binding)

/-- The zone computation of one zone (R81). -/
def Node.computeZone (n : Node) (z : Nat) : Node :=
  let faded := n.fadedOut z
  let n2 := faded.foldl (fun n id => n.removeLayer z id) (n.zoneRamps z)
  n2.modZone z fun r => r.emit (n2.accumulate z)

/-- The sixteen zone computations of a frame time, in ascending order (log 56). -/
def Node.computeZones (n : Node) : Node := zoneIndices.foldl Node.computeZone n

/-- The stacks of zones, by zone. -/
abbrev ZoneStacks := List (List Layer)

/-- The stack that each of these zone computations, taken in turn, finds: the layers of the events that belong to its frame time
(R85). -/
def Node.foundStacks (n : Node) : List Nat → ZoneStacks
  | [] => []
  | z :: zs => n.stack z :: (n.computeZone z).foundStacks zs

end Sys2Proof.Machine
end

