-- ==== Sys2Proof/Machine/Flags.lean ====
section
/-! DEFINITION. The four status outputs and the conditions they show (R136, R191). -/

namespace Sys2Proof.Machine

/-- Both receive ports are LOCKED. -/
def Node.ringOk (n : Node) : Bool := n.ring.west.state = .locked && n.ring.east.state = .locked

/-- At least one receive port is LOCKED. -/
def Node.ringAny (n : Node) : Bool := n.ring.west.state = .locked || n.ring.east.state = .locked

/-- One zone's stack among those found. -/
def ZoneStacks.ofZone (found : ZoneStacks) (z : Nat) : List Layer := found.getD z []

/-- Some zone holds a non-releasing layer of an alarm-channel binding. -/
def ZoneStacks.alarmAny (found : ZoneStacks) : Bool :=
  zoneIndices.any fun z => (found.ofZone z).any fun l => l.live && isAlarmId l.binding

/-- Some zone of the masks holds a non-releasing layer of class `c` or above. -/
def Node.zoneClass (n : Node) (found : ZoneStacks) (zones : Mask16) (kinds : KindMask) (c : Nat) : Bool :=
  zoneIndices.any fun z =>
    zones.getLsbD z && kinds.getLsbD (n.zone z).kind.code && (found.ofZone z).any fun l => l.live && decide (c ≤ l.cls)

/-- The call-ringing condition (R136). -/
def Node.callRinging (n : Node) : Bool := n.calls.records.any fun c => c.role = .callee && c.state = .ringing

/-- The condition of a selection's source (R191); layers are read in the stacks that the frame time's zone computations found,
since a later admission or pop belongs to the next frame time (R85). -/
def Node.condition (n : Node) (found : ZoneStacks) (o : Selection) : Bool :=
  match o.source with
  | .fixed => false
  | .ringOk => n.ringOk
  | .ringAny => n.ringAny
  | .alarmAny => found.alarmAny
  | .zoneClass => n.zoneClass found o.zones o.kinds o.param
  | .callRinging => n.callRinging
  | .contactEcho => (n.contact o.param).asserted

/-- An output is active (R191); none is while the node is STARTING. -/
def Node.driveOne (n : Node) (found : ZoneStacks) (o : Selection) : Bool := n.started && (n.condition found o != o.invert)

/-- The four outputs follow their selections (R191). -/
def Node.drive (n : Node) (found : ZoneStacks) : Node :=
  { n with mgmt := { n.mgmt with driven := n.mgmt.outputs.map (n.driveOne found) } }

end Sys2Proof.Machine
end

