-- ==== Sys2Proof/Machine/Timers.lean ====
section
/-! DEFINITION. The counts of a frame time and the events they bring: claims (R34, R36), calls (R130, R131, R136), jobs
(R152, R157), alarm periods (R115), the quiet count (R20), RESTART (R195). -/

namespace Sys2Proof.Machine

/-! ## Counts -/

/-- A claim's age (R30). -/
def Claim.older (c : Claim) : Claim := { c with age := c.age + 1 }

/-- An entry's age while CLAIMING, and its release countdown (R34, R36). -/
def SlotEntry.older (e : SlotEntry) : SlotEntry :=
  { e with claim := if e.state = .claiming then e.claim.map Claim.older else e.claim, owed := e.owed - 1 }

/-- The ages and countdowns of the Slot Controller. -/
def SlotCtl.older (s : SlotCtl) : SlotCtl :=
  { s with waiting := s.waiting.map Claim.older, table := s.table.map SlotEntry.older }

/-- A record at the start of a frame time: its state timer counts (R125), and its path count is noted (R138). -/
def CallRecord.older (c : CallRecord) : CallRecord :=
  { c with timer := if c.state = .idle then c.timer else min 1440000 (c.timer + 1), pathBefore := c.path, changed := false }

/-- A job's state timer, which counts in PENDING and GAP (R149). -/
def Job.older (j : Job) : Job :=
  if j.state = .waiting ∨ j.state = .gap then { j with timer := min 1440000 (j.timer + 1) } else j

/-- A player's job timer, unless an event row took the player's share (log 3). -/
def Node.jobOlder (n : Node) (p : Nat) : Node := if n.took (.player p) then n else n.modJob p Job.older

/-- The foreign quiet count of a node whose FMSTR strap is asserted (R20). -/
def Node.quieter (n : Node) : Node :=
  if n.mgmt.fmstr && !(n.waitingFrame.any fun x => n.isForeign x.2) then
    { n with ring := { n.ring with quiet := min 48000 (n.ring.quiet + 1) } }
  else n

/-- The frame times of a RESTART under way (R195). -/
def Node.restartOlder (n : Node) : Node := { n with mgmt := { n.mgmt with restart := n.mgmt.restart.map (· + 1) } }

/-- Every count of a frame time that brings its event later in the frame time. -/
def Node.counts (n : Node) : Node :=
  let n1 := { n with slots := n.slots.older
                     calls := { n.calls with records := n.calls.records.map CallRecord.older } }
  (([0, 1].foldl Node.jobOlder n1).quieter).restartOlder

/-! ## Events of counts -/

/-- The open claims whose age has reached 480, oldest request first (R34). -/
def Node.agedUsers (n : Node) : List User :=
  n.openUsers.filter fun u => (n.openClaim u).any fun c => decide (480 ≤ c.age)

/-- The claims that reach 480 frame times fail (R34), oldest request first (log 60). -/
def Node.claimTimeouts (n : Node) : Node := n.agedUsers.foldl Node.failClaim n

/-- The offer timeout (R130). -/
def Node.offerTimeout (n : Node) (r : Nat) : Node :=
  match (n.call r).firstReject with
  | some why => n.callEnd r why .remote
  | none => n.callEnd r .notFound .here

/-- The limit of a record's state, when it has one (R130, R131, R136). -/
def CallRecord.limit (c : CallRecord) : Option Nat :=
  match c.state, c.role with
  | .offering, .caller => some 48000
  | .alerting, .caller => some 1440000
  | .ringing, .callee => some 1440000
  | _, _ => none

/-- The end of a record's limit (R130, R131, R136). -/
def Node.callLimit (n : Node) (r : Nat) : Node :=
  if (n.call r).state = .offering then n.offerTimeout r else n.callEnd r .noAnswer .here

/-- A record whose timer has reached its limit ends its call. -/
def Node.callTimeout (n : Node) (r : Nat) : Node :=
  if (n.call r).limit.any fun l => decide (l ≤ (n.call r).timer) then n.callLimit r else n

/-- The timeouts of the call records, in ascending order (log 60). -/
def Node.callTimeouts (n : Node) : Node := (List.range 8).foldl Node.callTimeout n

/-- A PENDING job at a frame time (R152): its WAIT gate is tested, then its limit. -/
def Node.waitStep (n : Node) (p : Nat) : Node :=
  let n1 := n.testGate p
  if (n1.player p).job.state = .waiting ∧ 1440000 ≤ (n1.player p).job.timer then n1.jobEnd p .timeout else n1

/-- A GAP whose timer has reached the gap ends (R157). -/
def Node.gapStep (n : Node) (p : Nat) : Node :=
  let j := (n.player p).job
  if j.state = .gap ∧ j.gap ≤ j.timer then n.modJob p Job.nextPass else n

/-- The frame time of a job that waits. -/
def Node.jobStep (n : Node) (p : Nat) : Node := (n.waitStep p).gapStep p

/-! ## Alarm periods (R115, R116) -/

/-- The period of a channel in frame times (R105, R111). -/
def Node.period (n : Node) (a : Nat) : Nat := (n.codeEntry (n.channel a).code).period * 48000

/-- The channel's period ends at the next count (R115). -/
def Node.periodDue (n : Node) (a : Nat) : Bool :=
  (n.channel a).phase = .signal && decide (n.period a ≤ (n.channel a).timer + 1) && !n.took (.period a)

/-- The two channels, the one with the higher-ranked code first (R116). -/
def Node.channelOrder (n : Node) : List Nat :=
  if rankOf (n.channel 1).code < rankOf (n.channel 0).code then [1, 0] else [0, 1]

/-- The channels whose periods end together, in the order in which P1 is handed out (R116). -/
def Node.periodsDue (n : Node) : List Nat := n.channelOrder.filter n.periodDue

/-- A channel in SIGNAL counts (R115). -/
def Node.periodCount (n : Node) (a : Nat) : Node :=
  if (n.channel a).phase = .signal && !n.took (.period a) then n.modChannel a fun c => { c with timer := c.timer + 1 } else n

/-- The phase timers of a frame time: counts, and the ends of periods (R115). -/
def Node.periodStep (n : Node) : Node :=
  n.periodsDue.foldl Node.periodEnd (([0, 1].filter fun a => !n.periodDue a).foldl Node.periodCount n)

end Sys2Proof.Machine
end

