-- ==== Sys2Proof/Machine/Tick.lean ====
section
/-! DEFINITION. One frame time of the node (R3): the frames it generates or fills in (R14-R17), and every block's work, in
the order of log 4. -/

namespace Sys2Proof.Machine

/-! ## Frames generated -/

/-- The frame of an isolated slave (R16). -/
def isolatedFrame (seq : Nat) : Frame :=
  Frame.seal { seq := byte seq, master := 0, marks := 0, alarm := 0, fireZones := 0, issuer := 0,
               slots := List.replicate 64 .empty, lane := List.replicate 8 0, check := 0 }

/-- The frame a master generates (R17), with its own slots and control lane written. -/
def Node.masterBuilt (n : Node) (seq : Nat) (h : Headers) (lane : List Byte) : Frame :=
  Frame.seal { seq := byte seq, master := byte n.address, marks := 0, alarm := n.alarm.source.firstByte
               fireZones := n.alarm.source.mask, issuer := byte n.alarm.source.issuer, slots := h, lane := lane, check := 0 }

/-- The counts that read the headers of a generated frame: free runs but in ISOLATED (R56), and path counts but in ISOLATED and
in a held frame time (R138). -/
def Node.readGenerated (n : Node) (h : Headers) : Node :=
  if n.ring.wrap = .isolated then n
  else if n.heldTime then n.freeRuns h
  else (n.freeRuns h).pathCounts h

/-- The master generates one frame and sends it (R17, R14); the reset of a RESTART follows its insertion (R195). -/
def Node.generate (n : Node) : Node :=
  let seq := n.generatedSeq
  let h := n.ownSlots n.registerHeaders
  let l := (n.readGenerated h).generateLane seq
  let sent := l.node.sendGenerated .generated (l.node.masterBuilt seq h l.bytes)
  if l.restarts then sent.restartReset.withLinks sent else sent

/-! ## The ring's part of a frame time -/

/-- No frame arrived at the primary input: nothing is followed whole and no relay run goes on (R10, R19). -/
def Node.missed (n : Node) : Node := (n.laneMissed (List.replicate 8 0)).relayBreak

/-- The primary input, when its frame time brought nothing. -/
def Node.missingAt (n : Node) : Option Port :=
  n.ring.wrap.primary.bind fun p => if n.ring.arrival p = .none then some p else none

/-- The west transmitter of a relaying node, but for processed frames (R14). -/
def Node.westOfSlave (n : Node) : Node :=
  match n.ring.wrap with
  | .through => n.repeatEast .repeatEast
  | .wrapWest => n.silenceWest
  | .wrapEast => n
  | .isolated => n

/-- A slave's frame time on the links (R14-R16): generated frames in ISOLATED, otherwise repeats, and a fill frame where
nothing arrived. -/
def Node.slaveLinks (n : Node) : Node :=
  if n.ring.wrap = .isolated then n.sendGenerated .isolated (isolatedFrame n.generatedSeq)
  else
    match n.missingAt with
    | some p => n.westOfSlave.sendProcessed p none
    | none => n.westOfSlave

/-- The links while STARTING (R21): repeats go on at once, and nothing is sent in ISOLATED or at a master. -/
def Node.startingLinks (n : Node) : Node :=
  let quietEast := { n with ring := { n.ring with txEast := { n.ring.txEast with out := none } } }
  if n.ring.wrap = .through ∧ !n.ring.role then
    let f := match n.ring.eastIn with
      | .frame f => some f
      | .none => none
      | .taken _ => none
    { quietEast with ring := { quietEast.ring with txWest := quietEast.ring.txWest.forward .repeatEast f } }
  else { quietEast with ring := { quietEast.ring with txWest := { quietEast.ring.txWest with out := none } } }

/-- The waiting frame will be relayed, since the master yields to it (R20). -/
def Node.willYield (n : Node) : Bool := n.waitingFrame.any fun x => n.yieldsTo x.2

/-- The frame time's frame is generated by the node as a master (R17), and not relayed at a yield (R20). -/
def Node.willGenerate (n : Node) : Bool := n.isMaster && !n.willYield

/-- The waiting frame feeds the last-good store in this frame time, unless that is a held one (R11, R18). -/
def Node.hearsWaiting (n : Node) : Node :=
  match n.waitingFrame with
  | some (_, f) => if n.holdsTime f then n else n.storeSamples f.slots
  | none => n

/-- The ring's part of a frame time. -/
def Node.ringTick (n : Node) : Node :=
  if !n.started then n.startingLinks
  else
    let n1 := if n.missingAt.isSome then n.missed else n
    let n2 := n1.hearsWaiting
    if n2.willGenerate then n2.generate else n2.slaveLinks

/-! ## The parts of a frame time -/

/-- The pins are read and the frame counter advances (R3). -/
def Node.beginFrame (n : Node) (pins : Pins) : Node :=
  { n with pins := pins, ring := { n.ring with counter := (n.ring.counter + 1) % 4294967296 } }

/-- A yielded node whose quiet count is full resumes (R20). -/
def Node.resumeStep (n : Node) : Node := if n.mayResume ∧ n.ring.quiet = 48000 then n.resume else n

/-- A player gives its output of a frame time, unless an event row has, and its share is taken (log 3). -/
def Node.playerSounds (n : Node) (p : Nat) : Node := if n.took (.player p) then n else (n.playerTick p).mark (.player p)

/-- The players, generators and channels give their samples (R108, R111, R153). -/
def Node.sounds (n : Node) : Node :=
  let n1 := [0, 1].foldl Node.playerSounds n
  [Gen.channel 0, .channel 1, .callTone].foldl (fun (n : Node) g => if n.took (.generator g) then n else n.genTick g) n1

/-- An event row took the flash queue's share of this frame time (log 3). -/
def Node.tookFlash (n : Node) : Bool := n.took (.flash 0) || n.took (.flash 1) || n.took .headStart

/-- SIGLOCK is read, and the flash queue's head counts (R168, R172). -/
def Node.flashStep (n : Node) : Node :=
  if n.pins.siglock && n.library.ops.head?.any FlashOp.shielded then n.siglockRead
  else if n.tookFlash then n
  else n.phaseTick

/-- The contacts are read (R99), C0 before C1 (log 38). -/
def Node.contactStep (n : Node) : Node := [0, 1].foldl Node.contactRead n

/-- The events that timers bring (R34, R130, R131, R136, R152, R157). -/
def Node.timerEvents (n : Node) : Node := [0, 1].foldl Node.jobStep (n.claimTimeouts.callTimeouts)

/-- The reset of a RESTART whose response was not sent in 4,800 frame times (R195). -/
def Node.restartStep (n : Node) : Node :=
  if n.mgmt.restart.any fun k => decide (4800 ≤ k) then n.restartReset.withLinks n else n

/-- What a receiver held leaves with its frame time, but for a frame that waits at the primary input. -/
def Node.endArrivals (n : Node) : Node :=
  let keep (p : Port) : Arrival :=
    match n.ring.arrival p with
    | .frame f => if n.ring.wrap.primary = some p then .frame f else .none
    | .none => .none
    | .taken _ => .none
  { n with ring := { n.ring with westIn := keep .west, eastIn := keep .east } }

/-- The end of a frame time: the status outputs, with the stacks that its zone computations found, and no share taken early. -/
def Node.endFrame (n : Node) (found : ZoneStacks) : Node := { (n.drive found).endArrivals with early := [] }

/-- A frame time of a node that has left STARTING. A layer that a step after a zone's computation admits or pops belongs to the
next frame time (R85), and the status outputs show it from there (R191). -/
def Node.runFrame (n : Node) : Node :=
  let a := n.counts.resumeStep.sounds
  let b := a.flashStep.periodStep.ringTick
  if b.started then
    let c := [0, 1].foldl Node.playerEnd b
    c.computeZones.contactStep.timerEvents.restartStep.endFrame (c.foundStacks zoneIndices)
  else b.endFrame []

/-- A frame time while RESET_N is held (R195; log 25): the pins are read and the links run as in STARTING. -/
def Node.heldTick (n : Node) (pins : Pins) : Node := { n with pins := pins }.startingLinks.endArrivals

/-- One frame time of the node (R3, R21, R81, R191, R195). -/
def Node.frameTick (n : Node) (pins : Pins) : Node :=
  if n.mgmt.held then n.heldTick pins
  else
    let n1 := (n.beginFrame pins).startStep
    if n1.started then n1.runFrame else n1.ringTick.endFrame []

end Sys2Proof.Machine
end

