-- ==== Sys2Proof/Machine/RingWork.lean ====
section
/-! DEFINITION. What the commands of the ring and of the slots do once taken (R22, R23, R40, R41, R42). -/

namespace Sys2Proof.Machine

/-! ## The ring (R22, R23) -/

/-- A port's part of READ PORTS (R22). -/
def PortRecord.report (p : PortRecord) : List Byte :=
  [byte p.state.code] ++ flagByte p.inUse ++ bytesOf 2 p.windowErrors ++ bytesOf 2 p.totalErrors ++ [byte p.lockLosses] ++
    bytesOf 4 p.lockedRun

/-- The three ring parameters in force. -/
def Ring.parameters (r : Ring) : List Byte := [byte r.threshold] ++ bytesOf 4 r.hold ++ bytesOf 2 r.orphanLimit

/-- The results of READ PORTS (R22). -/
def Ring.report (r : Ring) : List Byte :=
  r.west.report ++ r.east.report ++ [byte r.wrap.code] ++ flagByte r.role ++ r.parameters

/-- READ PORTS clears a port's counts (R22). -/
def PortRecord.clearCounts (p : PortRecord) : PortRecord := { p with totalErrors := 0, lockLosses := 0 }

/-- READ PORTS (R22). -/
def Node.readPorts (n : Node) (who : Req) : Node :=
  { n with ring := { n.ring with west := n.ring.west.clearCounts, east := n.ring.east.clearCounts } }.respond who 0x08 .ok
    n.ring.report

/-- SET RING PARAMETERS (R23). -/
def Node.setRingParameters (n : Node) (who : Req) (threshold hold orphan : Nat) : Node :=
  let n1 := { n with ring := { n.ring with
    threshold := clampNat 1 255 threshold, hold := clampNat 4800 480000 hold, orphanLimit := clampNat 48 4800 orphan } }
  n1.respond who 0x09 .ok n1.ring.parameters

/-! ## Talk records and slots (R40-R42) -/

/-- SEND (R40). -/
def Node.sendTalk (n : Node) (who : Req) (input cls : Nat) : Node :=
  if 7 < input then n.respond who 0x0C .badValue []
  else if 7 < cls ∨ cls = 6 then n.respond who 0x0C .badValue []
  else if (n.talk input).state ≠ .closed then n.respond who 0x0C .busy []
  else
    (n.modTalk input fun t => { t with state := .claiming, cls := cls, requester := who, slot := none, lastEnd := .none }).claimFor
      (.talk input) cls

/-- A talk record closed by UNSEND (R41). -/
def TalkRecord.unsent (t : TalkRecord) : TalkRecord := { t with state := .closed, lastEnd := .unsent, slot := none }

/-- UNSEND (R41). -/
def Node.unsendTalk (n : Node) (who : Req) (input : Nat) : Node :=
  if 7 < input then n.respond who 0x0D .badValue []
  else
    let t := n.talk input
    match t.state with
    | .closed => n.respond who 0x0D .notFound []
    | .sending => ((n.releaseClaim (.talk input)).modTalk input TalkRecord.unsent).respond who 0x0D .ok []
    | .claiming =>
      (((n.releaseClaim (.talk input)).modTalk input TalkRecord.unsent).respond t.requester 0x0C .noSlot []).respond
        who 0x0D .ok []

/-- The indices a read reports: `count` from `first`, ended at the last index (R42, R146). -/
def viewIndices (first count last : Nat) : List Nat := (List.range (min count (last + 1 - first))).map (· + first)

/-- The user, class and attempt count of a table entry, absent while IDLE (R30, R42); a HELD entry shows the count with which it
was confirmed (log 51). -/
def claimReport : Option Claim → List Byte
  | some c => [byte (userCode c.user), byte c.cls, byte c.attempts]
  | none => [0xFF, 0xFF, 0xFF]

/-- A slot's entry of READ SLOTS (R42). -/
def Node.slotReport (n : Node) (k : Nat) : List Byte :=
  let e := n.entry k
  [byte e.state.code] ++ claimReport e.claim ++ bytesOf 2 e.owed ++
    (if n.ring.role then [byte (n.reg k).owner, byte (n.reg k).cls] ++ bytesOf 2 (n.reg k).orphan
     else [0xFF, 0xFF, 0xFF, 0xFF])

/-- A talk record's entry of READ SLOTS (R42). -/
def TalkRecord.report (t : TalkRecord) : List Byte :=
  [byte t.state.code, byte t.cls, byte t.requester.src, byte t.requester.tag] ++ optByte t.slot ++ [byte t.lastEnd.code]

/-- READ SLOTS (R42); views SLOTS 0, TALK 1 (log 13). -/
def Node.readSlots (n : Node) (who : Req) (view first count : Nat) : Node :=
  if 1 < view then n.respond who 0x0E .badValue []
  else if count = 0 ∨ 8 < count then n.respond who 0x0E .badValue []
  else if view = 0 then
    if 63 < first then n.respond who 0x0E .badValue []
    else n.respond who 0x0E .ok ((viewIndices first count 63).flatMap n.slotReport)
  else if 7 < first then n.respond who 0x0E .badValue []
  else n.respond who 0x0E .ok ((viewIndices first count 7).flatMap fun i => (n.talk i).report)

end Sys2Proof.Machine
end

