-- ==== Sys2Proof/Machine/ZoneWork.lean ====
section
/-! DEFINITION. What the commands of zones, bindings, classes and alarms do once taken (R45, R46, R53-R55, R59, R60, R64, R66,
R79, R96, R102). -/

namespace Sys2Proof.Machine

/-! ## Zones (R45, R46, R59) -/

/-- The four fields of WRITE ZONE written (R45). -/
def Zone.written (r : Zone) (logical : Nat) (fire : FireZone) (kind : ZoneKind) (floor : Int) : Zone :=
  { r with logical := logical, fireZone := fire, kind := kind, floor := clampInt (-384) 0 floor }

/-- WRITE ZONE with its fields in range (R45); a change of fire zone is told to the Alarm Engine (R104). -/
def Node.zoneWritten (n : Node) (z logical : Nat) (fire : FireZone) (kind : ZoneKind) (floor : Int) : Node :=
  let n1 := n.modZone z fun r => r.written logical fire kind floor
  if (n.zone z).fireZone = fire then n1 else n1.alarmEvent

/-- WRITE ZONE (R45). -/
def Node.writeZone (n : Node) (who : Req) (z logical fire kind : Nat) (floor : Int) : Node :=
  if 15 < z then n.respond who 0x10 .badValue []
  else if 4095 < logical then n.respond who 0x10 .badValue []
  else
    match FireZone.ofCode fire, ZoneKind.ofCode kind with
    | none, _ => n.respond who 0x10 .badValue []
    | some _, none => n.respond who 0x10 .badValue []
    | some f, some k =>
      let n1 := n.zoneWritten z logical f k floor
      n1.respond who 0x10 .ok (n1.zone z).configBytes

/-- A zone record takes a new volume target when it holds the logical zone number (R46). -/
def Zone.retargetVolume (logical : Nat) (level : Int) (r : Zone) : Zone :=
  if r.logical = logical then { r with volTarget := level } else r

/-- SET VOLUME (R46). -/
def Node.setVolume (n : Node) (who : Req) (logical : Nat) (level : Int) : Node :=
  let l := clampInt (-384) 0 level
  let hits := (n.mixer.zones.filter fun r => r.logical = logical).length
  if logical = 0 ∨ 4095 < logical then n.respond who 0x11 .badValue []
  else if hits = 0 then n.respond who 0x11 .notFound []
  else
    { n with mixer := { n.mixer with zones := n.mixer.zones.map (Zone.retargetVolume logical l) } }.respond who 0x11 .ok
      (levelBytes l ++ [byte hits])

/-- The results of READ ZONE (R59). -/
def Zone.report (r : Zone) : List Byte :=
  bytesOf 2 r.logical ++ [byte r.fireZone.code, byte r.kind.code] ++ levelBytes r.volTarget ++ levelBytes r.vol ++
    levelBytes r.floor ++ bytesOf 2 r.clips ++ [byte r.stack.length]

/-- READ ZONE (R59). -/
def Node.readZone (n : Node) (who : Req) (z : Nat) : Node :=
  if 15 < z then n.respond who 0x12 .badValue []
  else (n.modZone z fun r => { r with clips := 0 }).respond who 0x12 .ok (n.zone z).report

/-! ## Bindings (R53-R55, R60) -/

/-- The checks of R53, in order: the source, or the status of the first check that fails. -/
def Node.checkBind (n : Node) (kind index cls : Nat) (autoEnd : Bool) (target : Target) : Except Status Source :=
  if kind = 3 ∨ kind = 4 then .error .badValue
  else
    match Source.ofBind kind index with
    | none => .error .badValue
    | some source =>
      if 7 < cls ∨ cls = 6 then .error .badValue
      else if autoEnd ∧ kind ≠ 0 then .error .badValue
      else if targetMalformed target then .error .badValue
      else if n.bindingsFull then .error .full
      else .ok source

/-- The record of a remote binding (R54). -/
def remoteBinding (who : Req) (source : Source) (cls : Nat) (gain : Int) (autoEnd : Bool) (cookie : Nat) : Binding where
  source := source
  cls := cls
  gain := clampInt (-384) 32 gain
  autoEnd := autoEnd
  freeRun := 0
  owner := .remote who.src cookie
  zones := 0
  ending := .none

/-- The results of a BIND (R54, R200). -/
def Pushed.results (p : Pushed) : List Byte := optByte p.id ++ [byte p.active, byte p.held, byte p.kind, byte p.full]

/-- BIND (R53, R54); its response does not echo the clamped gain (R200; log 62). -/
def Node.bindSource (n : Node) (who : Req) (kind index cls : Nat) (gain : Int) (autoEnd : Bool) (cookie : Nat)
    (target : Target) : Node :=
  match n.checkBind kind index cls autoEnd target with
  | .error st => n.respond who 0x13 st [0xFF, 0, 0, 0, 0]
  | .ok source =>
    let p := n.push (n.resolve target) (remoteBinding who source cls gain autoEnd cookie)
    p.node.respond who 0x13 (if p.id.isSome then .ok else .noneAdmitted) p.results

/-- A binding has a remote owner. -/
def Binding.isRemote (b : Binding) : Bool :=
  match b.owner with
  | .remote _ _ => true
  | .channel _ => false
  | .player _ => false
  | .call _ => false

/-- UNBIND (R55). -/
def Node.unbindId (n : Node) (who : Req) (id : Nat) : Node :=
  if 63 < id then n.respond who 0x14 .badValue []
  else
    match n.binding id with
    | none => n.respond who 0x14 .notFound []
    | some b =>
      if !b.isRemote then n.respond who 0x14 .badValue []
      else
        (if b.ending = .none then (n.beginEnd id .unbound).popAll id else n).respond who 0x14 .ok
          ([byte id] ++ bytesOf 2 b.zones.toNat)

/-- The entry of READ BINDING: FREE 0 or LIVE 1, then the record or absent marks (R60; log 13). -/
def bindingReport : Option Binding → List Byte
  | some b => [1] ++ b.source.bytes ++ [byte b.cls] ++ levelBytes b.gain ++ flagByte b.autoEnd ++ [byte b.freeRun] ++
      b.owner.bytes ++ bytesOf 2 b.zones.toNat ++ [byte b.ending.code]
  | none => [0] ++ List.replicate 14 0xFF

/-- READ BINDING (R60). -/
def Node.readBinding (n : Node) (who : Req) (id : Nat) : Node :=
  if 63 < id then n.respond who 0x15 .badValue [] else n.respond who 0x15 .ok (bindingReport (n.binding id))

/-! ## Classes (R64, R66) -/

/-- WRITE CLASS (R64). -/
def Node.writeClass (n : Node) (who : Req) (c equal : Nat) (duck : Int) (volume : Nat) (kinds : Byte) (limit : Nat) : Node :=
  if 7 < c then n.respond who 0x18 .badValue []
  else if 5 ≤ c then n.respond who 0x18 .badValue []
  else
    match EqualRule.ofCode equal, VolumeRule.ofCode volume with
    | none, _ => n.respond who 0x18 .badValue []
    | some _, none => n.respond who 0x18 .badValue []
    | some e, some v =>
      let n1 := (n.setClass c (correctClass c
        { equal := e, duck := duck, volume := v, kinds := kindMaskOf kinds, limit := limit })).classChange [c]
      n1.respond who 0x18 .ok (n1.classRecord c).bytes

/-- READ CLASS (R66). -/
def Node.readClass (n : Node) (who : Req) (c : Nat) : Node :=
  if 7 < c then n.respond who 0x19 .badValue [] else n.respond who 0x19 .ok (n.classRecord c).bytes

/-! ## Stacks (R79) -/

/-- The source of a layer's binding, absent for none. -/
def Node.layerSource (n : Node) (l : Layer) : List Byte :=
  match n.binding l.binding with
  | some b => b.source.bytes
  | none => [0xFF, 0xFF]

/-- A layer's entry of READ STACK (R79). -/
def Node.layerReport (n : Node) (l : Layer) : List Byte :=
  [byte l.binding] ++ n.layerSource l ++ [byte l.cls, byte l.state.code] ++ levelBytes l.fade ++ levelBytes l.duck ++
    levelBytes l.target

/-- READ STACK (R79). -/
def Node.readStack (n : Node) (who : Req) (z : Nat) : Node :=
  if 15 < z then n.respond who 0x1A .badValue []
  else n.respond who 0x1A .ok ([byte (n.stack z).length] ++ (n.stack z).flatMap n.layerReport)

/-! ## Alarms (R96, R102) -/

/-- The sender may set the alarm (R96, check 3). -/
def Alarm.allows (a : Alarm) (src : Nat) : Bool := a.authority.all (· = 0) || (src ≠ 0 && a.authority.contains src)

/-- SET ALARM (R96). -/
def Node.setAlarm (n : Node) (who : Req) (code : Nat) (mask : Mask16) : Node :=
  if 15 < code then n.respond who 0x20 .badValue []
  else if !n.ring.role then n.respond who 0x20 .notMaster []
  else if !n.alarm.allows who.src then n.respond who 0x20 .notAuthorised []
  else
    let w : AlarmWord := { set := true, code := code, mask := mask, issuer := who.src }
    { n with alarm := { n.alarm with source := w } }.respond who 0x20 .ok w.bytes

/-- A contact's part of READ ALARM (R102); the taken state is a flag, ASSERTED 1 (log 13). -/
def Contact.report (c : Contact) : List Byte := flagByte c.enabled ++ flagByte c.asserted ++ bytesOf 2 c.run

/-- A channel's part of READ ALARM (R102): phase, signal, code and its binding's zone mask, 0 while the
binding is FREE (log 37). -/
def Node.channelReport (n : Node) (a : Nat) : List Byte :=
  let c := n.channel a
  [byte c.phase.code] ++ optByte c.signal ++ [byte c.code] ++
    bytesOf 2 (((n.binding (alarmId a)).map fun b => b.zones.toNat).getD 0)

/-- The results of READ ALARM (R102). -/
def Node.alarmReport (n : Node) : List Byte :=
  n.alarm.confirmed.bytes ++ n.alarm.candidate.bytes ++
    (if n.ring.role then n.alarm.source.bytes else List.replicate 4 0xFF) ++
    n.alarm.contacts.flatMap Contact.report ++ n.alarm.table.flatMap (fun e => [byte e.code, byte e.source.code]) ++
    n.channelReport 0 ++ n.channelReport 1 ++ changeBytes n.alarm.firstUnread ++ changeBytes n.alarm.latest ++
    [byte n.alarm.unread]

/-- READ ALARM (R102). -/
def Node.readAlarm (n : Node) (who : Req) : Node :=
  { n with alarm := { n.alarm with firstUnread := none, unread := 0 } }.respond who 0x21 .ok n.alarmReport

end Sys2Proof.Machine
end

