-- ==== Sys2Proof/Machine/CallWork.lean ====
section
/-! DEFINITION. What the commands of stations and calls do once taken (R124, R128, R135, R142, R146), and the signalling
packets (R126, R130-R136), the offer (R133) and the send list's hand-off (R127). -/

namespace Sys2Proof.Machine

/-! ## Stations (R123, R124) -/

/-- A station is the local station of a call record that is not IDLE (R124, R128, R133). -/
def Node.stationBusy (n : Node) (i : Nat) : Bool := n.calls.records.any fun c => c.state ≠ .idle && c.station = i

/-- Another station of the node holds a directory number (R124). -/
def Node.numberTaken (n : Node) (i number : Nat) : Bool :=
  number ≠ 0 && (List.range 8).any fun k => k ≠ i && (n.station k).number = number

/-- WRITE STATION (R124). -/
def Node.writeStation (n : Node) (who : Req) (i number mic speaker : Nat) (auto : Bool) : Node :=
  if 7 < i then n.respond who 0x24 .badValue []
  else if 9999 < number then n.respond who 0x24 .badValue []
  else if 7 < mic then n.respond who 0x24 .badValue []
  else if 15 < speaker then n.respond who 0x24 .badValue []
  else if n.numberTaken i number then n.respond who 0x24 .badValue []
  else if n.stationBusy i then n.respond who 0x24 .busy []
  else
    let st : Station := { number := number, mic := mic, speaker := speaker, auto := auto }
    { n with calls := { n.calls with stations := n.calls.stations.set i st } }.respond who 0x24 .ok st.bytes

/-! ## Taking a record (R125) -/

/-- A closing packet of a record's last call is still in the send list (R125). -/
def Node.closingQueued (n : Node) (r : Nat) : Bool :=
  n.calls.sendList.any fun e => e.tie.any fun t => t.record = r && t.closing

/-- A record is available (R125). -/
def Node.recordAvailable (n : Node) (r : Nat) : Bool := (n.call r).state = .idle && !n.closingQueued r

/-- The lowest-numbered available record (R125). -/
def Node.availableRecord (n : Node) : Option Nat := (List.range 8).find? n.recordAvailable

/-- A record taken for a new call, CLAIMING, its fields set afresh (R125); the last clear reason and side stay. -/
def CallRecord.taken (c : CallRecord) (role : Role) (station number cls : Nat) : CallRecord :=
  { CallRecord.reset with
    state := .claiming, changed := true, role := role, serial := (c.serial + 1) % 32, station := station, number := number, cls := cls
    clearReason := c.clearReason, clearSide := c.clearSide }

/-! ## CALL, ANSWER, HANGUP, READ CALLS -/

/-- CALL (R128); a claim that fails at once ends the call ahead of the response (log 57). -/
def Node.placeCall (n : Node) (who : Req) (i number : Nat) (priority : Bool) : Node :=
  if 7 < i then n.respond who 0x25 .badValue []
  else if number = 0 ∨ 9999 < number then n.respond who 0x25 .badValue []
  else if (n.station i).number = 0 then n.respond who 0x25 .notFound []
  else if (n.station i).number = number then n.respond who 0x25 .badValue []
  else if n.stationBusy i then n.respond who 0x25 .busy []
  else
    match n.availableRecord with
    | none => n.respond who 0x25 .busy []
    | some r =>
      let cls := if priority then 7 else 4
      let n1 := (n.modCall r fun c => c.taken .caller i number cls).claimFor (.call r) cls
      n1.respond who 0x25 .ok [byte (callIdOf r (n1.call r)), byte (n1.call r).state.code]

/-- The record that a call id names, when it is not IDLE (R126, R135, R142). -/
def Node.recordOf (n : Node) (id : Nat) : Option Nat :=
  (List.range 8).find? fun r => (n.call r).state ≠ .idle && callIdOf r (n.call r) = id

/-- ANSWER (R135); a call that ends in CAPACITY sends its notice ahead of the response (log 57). -/
def Node.answerId (n : Node) (who : Req) (id : Nat) : Node :=
  match n.recordOf id with
  | none => n.respond who 0x26 .notFound []
  | some r =>
    if (n.call r).role = .callee ∧ (n.call r).state = .ringing then
      (if (n.call r).answerPending then n else n.answerCall r).respond who 0x26 .ok []
    else n.respond who 0x26 .notFound []

/-- HANGUP (R142); the notice goes ahead of the response (log 57). -/
def Node.hangupId (n : Node) (who : Req) (id : Nat) : Node :=
  match n.recordOf id with
  | none => n.respond who 0x27 .notFound []
  | some r => (n.callEnd r .hangup .here).respond who 0x27 .ok [byte id]

/-- A reason, NONE as 0. -/
def reasonByte : Option Reason → Byte
  | some r => byte r.code
  | none => 0

/-- A side, or its absent mark. -/
def sideByte : Option Side → Byte
  | some s => byte s.code
  | none => 0xFF

/-- A record's entry of READ CALLS (R146): the call id and every field of R125. -/
def Node.callReport (n : Node) (r : Nat) : List Byte :=
  let c := n.call r
  [byte (callIdOf r c), byte c.state.code, byte c.role.code, byte c.serial, byte c.station] ++ bytesOf 2 c.number ++
    [byte c.cls] ++ optByte c.remote ++ optByte c.remoteId ++ optByte c.talk ++ optByte c.listen ++ optByte c.tone ++
    optByte c.listenBinding ++ bytesOf 4 c.timer ++ [byte c.path, byte c.resends, byte c.outstanding.code] ++
    flagByte c.answerPending ++ [reasonByte c.firstReject, reasonByte c.clearReason, sideByte c.clearSide]

/-- READ CALLS (R146); views CALLS 0, STATIONS 1 (log 13). -/
def Node.readCalls (n : Node) (who : Req) (view first count : Nat) : Node :=
  if 1 < view then n.respond who 0x28 .badValue []
  else if count = 0 ∨ 8 < count then n.respond who 0x28 .badValue []
  else if 7 < first then n.respond who 0x28 .badValue []
  else if view = 0 then n.respond who 0x28 .ok ((viewIndices first count 7).flatMap n.callReport)
  else n.respond who 0x28 .ok ((viewIndices first count 7).flatMap fun i => (n.station i).bytes)

/-! ## Signalling packets (R126) -/

/-- An untied CLEAR answers a packet (R126, R132): to id is the packet's from id. -/
def Node.answerClear (n : Node) (p : Packet) (own : Nat) (why : Reason) : Node :=
  n.sendUntied (n.signalling p.src 0x94 [byte (byteAt p.payload 1), byte own, byte why.code])

/-- An unmatched RINGING or ANSWERED is answered with GONE (R126). -/
def Node.answerGone (n : Node) (p : Packet) : Node := n.answerClear p (byteAt p.payload 0) .gone

/-- A record matches a packet by source and from id (R126). -/
def CallRecord.matchesPacket (c : CallRecord) (p : Packet) (fromId : Nat) : Bool :=
  c.remote == some p.src && c.remoteId == some fromId

/-- A CALLER in OFFERING (R130). -/
def CallRecord.offers (c : CallRecord) : Bool := c.role = .caller && c.state = .offering

/-- The first RINGING taken in OFFERING (R130): ring-back tone and ALERTING. -/
def Node.firstRinging (n : Node) (r : Nat) (p : Packet) : Node :=
  let pushed := n.callPush r .callTone
  pushed.1.modCall r fun c =>
    { c.enter .alerting with
      remote := some p.src, remoteId := some (byteAt p.payload 1), listen := some (byteAt p.payload 2), path := 0
      pathBefore := 0, tone := pushed.2 }

/-- RINGING (R126, R130, R132, R136); one from the record's own remote node is discarded whatever its from id (R132; log 58). -/
def Node.takeRinging (n : Node) (p : Packet) : Node :=
  if p.payload.length ≠ 3 ∨ 63 < byteAt p.payload 2 then n
  else
    match n.recordOf (byteAt p.payload 0) with
    | none => n.answerGone p
    | some r =>
      let c := n.call r
      if c.offers then n.firstRinging r p
      else if c.role = .caller ∧ (c.state = .alerting ∨ c.state = .connected) then
        if c.remote = some p.src then n else n.answerClear p (callIdOf r c) .duplicate
      else if c.matchesPacket p (byteAt p.payload 1) then n
      else n.answerGone p

/-- The answered call of an ALERTING caller: tone popped, listen layer pushed, CONNECTED or CAPACITY (R131). -/
def Node.connectCaller (n : Node) (r : Nat) : Node :=
  let c := n.call r
  let n1 := (n.modCall r fun c => { c with tone := none }).popLayers c.tone (.call r)
  let pushed := n1.callPush r (.ring (c.listen.getD 0))
  match pushed.2 with
  | some id => pushed.1.modCall r fun c => { c.enter .connected with listenBinding := some id }
  | none => pushed.1.callEnd r .capacity .here

/-- ANSWERED (R126, R130, R131, R136). -/
def Node.takeAnswered (n : Node) (p : Packet) : Node :=
  if p.payload.length ≠ 2 then n
  else
    match n.recordOf (byteAt p.payload 0) with
    | none => n.answerGone p
    | some r =>
      let c := n.call r
      if c.offers then n
      else if c.matchesPacket p (byteAt p.payload 1) then
        if c.role = .caller ∧ c.state = .alerting then n.connectCaller r else n
      else n.answerGone p

/-- The first REJECT in OFFERING is recorded (R130). -/
def CallRecord.recordReject (c : CallRecord) (why : Reason) : CallRecord :=
  { c with firstReject := c.firstReject <|> some why }

/-- REJECT (R126, R130, R131, R136); a from id is present only where the from-present byte is 1 (log 61). -/
def Node.takeReject (n : Node) (p : Packet) : Node :=
  match Reason.ofCode (byteAt p.payload 3), n.recordOf (byteAt p.payload 0) with
  | some why, some r =>
    let c := n.call r
    if p.payload.length ≠ 4 then n
    else if c.offers then n.modCall r fun c => c.recordReject why
    else if c.role = .caller ∧ c.state = .alerting ∧ byteAt p.payload 2 = 1 ∧ c.matchesPacket p (byteAt p.payload 1) then
      n.callEnd r why .remote
    else n
  | _, _ => n

/-- CLEAR (R126, R131, R134, R136, R137). -/
def Node.takeClear (n : Node) (p : Packet) : Node :=
  match Reason.ofCode (byteAt p.payload 2), n.recordOf (byteAt p.payload 0) with
  | some why, some r =>
    if p.payload.length = 3 ∧ (n.call r).matchesPacket p (byteAt p.payload 1) then n.callEnd r why .remote else n
  | _, _ => n

/-! ## The offer (R133) -/

/-- The station in use that holds a directory number (R133). -/
def Node.calledStation (n : Node) (number : Nat) : Option Nat :=
  (List.range 8).find? fun i => number ≠ 0 && (n.station i).number = number

/-- An OFFER repeats the call of a CALLEE record that is not IDLE (R133). -/
def Node.offerRepeats (n : Node) (p : Packet) : Bool :=
  n.calls.records.any fun c => c.state ≠ .idle && c.role = .callee && c.matchesPacket p (byteAt p.payload 4)

/-- A non-releasing layer of class 6 or 7 lies in a zone (R133). -/
def Node.alarmIn (n : Node) (z : Nat) : Bool := (n.stack z).any fun l => l.live && decide (6 ≤ l.cls)

/-- The untied REJECT of an OFFER that takes no record; it has no from id (R133; absent mark of R200). -/
def Node.rejectOffer (n : Node) (p : Packet) (why : Reason) : Node :=
  n.sendUntied (n.signalling p.src 0x93 [byte (byteAt p.payload 4), 0xFF, 0, byte why.code])

/-- A CALLEE record takes the offer (R133). -/
def Node.acceptOffer (n : Node) (r i : Nat) (p : Packet) : Node :=
  (n.modCall r fun c =>
    { c.taken .callee i (natOf (slice p.payload 0 2)) (byteAt p.payload 5) with
      remote := some p.src, remoteId := some (byteAt p.payload 4), listen := some (byteAt p.payload 6) }).claimFor
    (.call r) (byteAt p.payload 5)

/-- The checks of R133 for an OFFER to station `i`. -/
def Node.offerTo (n : Node) (i : Nat) (p : Packet) : Node :=
  let cls := byteAt p.payload 5
  let z := (n.station i).speaker
  match n.availableRecord with
  | none => n.rejectOffer p .busy
  | some r =>
    if n.stationBusy i then n.rejectOffer p .busy
    else if cls = 4 ∧ n.alarmIn z then n.rejectOffer p .alarm
    else if cls = 7 ∧ (n.classRecord 7).limit ≤ liveCount (n.stack z) 7 then n.rejectOffer p .capacity
    else n.acceptOffer r i p

/-- OFFER (R126, R133): fields out of range discard it; its source is taken whatever it is (log 59). -/
def Node.takeOffer (n : Node) (p : Packet) : Node :=
  if p.payload.length ≠ 7 ∨ (byteAt p.payload 5 ≠ 4 ∧ byteAt p.payload 5 ≠ 7) ∨ 63 < byteAt p.payload 6 then n
  else
    match n.calledStation (natOf (slice p.payload 2 2)) with
    | none => n
    | some i => if n.offerRepeats p then n else n.offerTo i p

/-! ## The inbound head and the send list -/

/-- The head of the inbound queue leaves it (R185). -/
def Node.popInbound (n : Node) : Node := { n with lane := { n.lane with inbound := n.lane.inbound.tail } }

/-- A signalling packet of the given kind is taken from the inbound head, in one event (R126, R185), from any source
(log 59); one of another length or with an unknown reason is discarded (R200). -/
def Node.takeSignalling (n : Node) (kind : Nat) (work : Node → Packet → Node) : Node :=
  match n.lane.inbound with
  | [] => n
  | p :: _ => if p.kind = kind ∧ n.running ∧ !n.mgmt.held then work n.popInbound p else n

/-- The head of the send list is handed to the outbound queue when that has signalling room (R127, R186). -/
def Node.handOff (n : Node) : Node :=
  match n.calls.sendList with
  | [] => n
  | e :: rest => if n.load < 7 ∧ n.running then (n.setSendList rest).enqueue e.packet else n

end Sys2Proof.Machine
end

