-- ==== Sys2Proof/Machine/StatusWork.lean ====
section
/-! DEFINITION. What the commands of identity, status, notices, groups, outputs and RESTART do once taken (R189, R190,
R192-R195), and READ PLAYERS (R164). -/

namespace Sys2Proof.Machine

/-! ## READ PLAYERS (R164) -/

/-- A job's target as zones, after a byte that says whether there is one (log 13). -/
def targetBytes : Option Mask16 → List Byte
  | some m => [1] ++ bytesOf 2 m.toNat
  | none => [0, 0, 0]

/-- Every field of a job record (R149, R164). -/
def Job.report (j : Job) : List Byte :=
  [byte j.state.code, byte j.message] ++ bytesOf 2 j.start ++ bytesOf 4 j.length ++ [byte j.cls] ++ levelBytes j.gain ++
    levelBytes j.trim ++ targetBytes j.target ++ flagByte j.ringOut ++ [byte j.passes] ++ bytesOf 2 j.passCount ++
    bytesOf 4 j.gap ++ flagByte j.wait ++ [byte j.requester] ++ bytesOf 2 j.cookie ++ optByte j.binding ++
    optByte j.talk ++ [byte j.claim.code] ++ bytesOf 4 j.position ++ [byte j.half.code] ++ bytesOf 4 j.timer ++
    bytesOf 2 j.underruns ++ [byte (jobEndCode j.endReason), byte (jobEndCode j.lastEnd)]

/-- A player's part of READ PLAYERS: its job, and the samples in its prefetch queue. -/
def Player.report (p : Player) : List Byte := p.job.report ++ bytesOf 2 p.queue.length

/-- READ PLAYERS (R164). -/
def Node.readPlayers (n : Node) (who : Req) : Node :=
  n.respond who 0x2E .ok
    ((n.player 0).report ++ (n.player 1).report ++ flagByte (n.player 1).voice.isSome ++ flagByte n.alarmOwned)

/-! ## Identity and status (R193, R194) -/

/-- The results of IDENTIFY (R193, R200). -/
def Node.identity (n : Node) : List Byte :=
  [0x0B] ++ bytesOf 2 640 ++ [1, byte n.address, byte n.mgmt.address] ++ flagByte n.mgmt.fmstr ++
    [byte n.mgmt.cause.code, byte n.mgmt.node.code, byte n.ring.wrap.code] ++ flagByte n.ring.role ++
    flagByte n.library.signalTaken ++ flagByte n.library.configTaken ++ bytesOf 4 n.ring.counter

/-- IDENTIFY (R193). -/
def Node.identify (n : Node) (who : Req) : Node := n.respond who 0x01 .ok n.identity

/-- The busy bank, or its absent mark (R167, R194). -/
def Node.busyBank (n : Node) : List Byte := optByte ([0, 1].find? n.bankBusy)

/-- The results of READ STATUS (R194). -/
def Node.status (n : Node) : List Byte :=
  [byte n.mgmt.node.code, byte n.ring.wrap.code] ++ flagByte n.ring.role ++
    [byte n.lane.inbound.length, byte n.lane.outbound.length, byte n.lane.reservations, byte n.calls.sendList.length,
      byte n.library.ops.length] ++ n.busyBank ++ flagByte n.pins.siglock ++
    (List.zip n.mgmt.outputs n.mgmt.driven).flatMap (fun x => x.1.bytes ++ flagByte x.2) ++
    [byte n.lane.noticeDest] ++ bytesOf 2 n.lane.groups.toNat ++ [byte n.lane.noticeCount] ++ flagByte n.lane.noticeLost ++
    bytesOf 2 n.lane.refused

/-- READ STATUS (R194). -/
def Node.readStatus (n : Node) (who : Req) : Node :=
  { n with lane := { n.lane with noticeLost := false, refused := 0 } }.respond who 0x02 .ok n.status

/-! ## Notices, groups, outputs (R189, R190, R192) -/

/-- SET NOTICE DESTINATION (R189). -/
def Node.setNoticeDestination (n : Node) (who : Req) (address : Nat) : Node :=
  if 255 < address then n.respond who 0x03 .badValue []
  else { n with lane := { n.lane with noticeDest := address } }.respond who 0x03 .ok [byte address]

/-- SET GROUPS (R190). -/
def Node.setGroups (n : Node) (who : Req) (mask : Mask16) : Node :=
  if mask.getLsbD 15 then n.respond who 0x04 .badValue []
  else { n with lane := { n.lane with groups := mask.setWidth 15 } }.respond who 0x04 .ok (bytesOf 2 mask.toNat)

/-- A selection as SET OUTPUT stores it: parameters that the source does not use are 0 (R192). -/
def selectionOf (source : OutSource) (invert : Bool) (zones : Mask16) (kinds : Byte) (param : Nat) : Selection :=
  let used : Selection := { source := source, invert := invert, zones := 0, kinds := 0, param := 0 }
  match source with
  | .zoneClass => { used with zones := zones, kinds := kindMaskOf kinds, param := param }
  | .contactEcho => { used with param := param }
  | .fixed => used
  | .ringOk => used
  | .ringAny => used
  | .alarmAny => used
  | .callRinging => used

/-- A source's parameter in its range (R192, check 3). -/
def OutSource.accepts (source : OutSource) (param : Nat) : Bool :=
  match source with
  | .zoneClass => param ≤ 7
  | .contactEcho => param ≤ 1
  | .fixed => true
  | .ringOk => true
  | .ringAny => true
  | .alarmAny => true
  | .callRinging => true

/-- SET OUTPUT (R192). -/
def Node.setOutput (n : Node) (who : Req) (output source : Nat) (invert : Bool) (zones : Mask16) (kinds : Byte)
    (param : Nat) : Node :=
  if 3 < output then n.respond who 0x05 .badValue []
  else
    match OutSource.ofCode source with
    | none => n.respond who 0x05 .badValue []
    | some o =>
      if !o.accepts param then n.respond who 0x05 .badValue []
      else
        let sel := selectionOf o invert zones kinds param
        { n with mgmt := { n.mgmt with outputs := n.mgmt.outputs.set output sel } }.respond who 0x05 .ok
          (sel.bytes ++ flagByte (n.mgmt.driven.getD output false))

/-! ## RESTART (R195) -/

/-- The BINDING ENDED notice of a LIVE remote binding at a RESTART (R52). -/
def Node.restartBinding (n : Node) (id : Nat) : Node :=
  match n.binding id with
  | some b => n.bindingEndedNotice id b .restart
  | none => n

/-- The PLAYER DONE notice of a job that is not IDLE at a RESTART (R164). The record keeps its end reason, and the PLAYER DONE of a
job that finishes between the command and its reset carries that (log 71). -/
def Node.restartJob (n : Node) (p : Nat) : Node :=
  if (n.player p).job.state = .idle then n else n.playerDone p .restart

/-- RESTART (R195): notices, the response, and no further command until the reset. -/
def Node.takeRestart (n : Node) (who : Req) : Node :=
  let n1 := [0, 1].foldl Node.restartJob ((List.range 64).foldl Node.restartBinding n)
  let n2 := n1.respond who 0x06 .ok []
  { n2 with mgmt := { n2.mgmt with restart := some 0 } }

end Sys2Proof.Machine
end

