-- ==== Sys2Proof/Machine/Operands.lean ====
section
/-! DEFINITION. Commands as packets spell them (R187, R200; log 12): the operands of each kind, and a command's work by its
name. -/

namespace Sys2Proof.Machine

/-- What a packet in the command range spells (R187). -/
inductive Parsed where
  | command (i : Instr)
  | badLength
  | unknownKind
  deriving DecidableEq, Repr

/-- Two bytes as an unsigned number, from place `i`. -/
def wordAt (p : List Byte) (i : Nat) : Nat := natOf (slice p i 2)

/-- A level code, from place `i`. -/
def levelAt (p : List Byte) (i : Nat) : Int := intOf (slice p i 2)

/-- A flag byte is set when it is 1 (log 24). -/
def flagAt (p : List Byte) (i : Nat) : Bool := byteAt p i = 1

/-- A bit of a flags byte. -/
def bitAt (p : List Byte) (i bit : Nat) : Bool := (p.getD i 0).getLsbD bit

/-- The 16 flags of two bytes, from place `i`. -/
def maskAt (p : List Byte) (i : Nat) : Mask16 := BitVec.ofNat 16 (wordAt p i)

/-- A target that takes up all of the given bytes (R200); none when their number disagrees with its form or count. -/
def targetOf (p : List Byte) : Option Target :=
  if p.length = 0 then none
  else if byteAt p 0 = 0 then
    if p.length = 2 + 2 * byteAt p 1 ∧ 2 ≤ p.length then
      some (.list ((List.range (byteAt p 1)).map fun k => wordAt p (2 + 2 * k)))
    else none
  else if byteAt p 0 = 1 then
    if p.length = 4 then some (.selector (maskAt p 1) (p.getD 3 0)) else none
  else none

/-- A command of a fixed length. -/
def fixed (p : List Byte) (n : Nat) (i : Instr) : Parsed := if p.length = n then .command i else .badLength

/-- BIND's payload (R200); bits 1-7 of its flags are ignored (log 63). -/
def bindOf (p : List Byte) (who : Req) : Parsed :=
  match targetOf (p.drop 8) with
  | some t =>
    .command (.bind who (byteAt p 0) (byteAt p 1) (byteAt p 2) (levelAt p 3) (bitAt p 5 0) (wordAt p 6) t)
  | none => .badLength

/-- PLAY's parameters but for its target (R200). -/
def playArgsOf (p : List Byte) (t : Option Target) : PlayArgs where
  player := byteAt p 0
  message := byteAt p 1
  cls := byteAt p 2
  gain := levelAt p 3
  ringOut := bitAt p 5 0
  wait := bitAt p 5 1
  target := t
  passes := byteAt p 6
  gapMs := wordAt p 7
  cookie := wordAt p 9

/-- PLAY's payload (R200); bits 3-7 of its flags are ignored (log 63). -/
def playOf (p : List Byte) (who : Req) : Parsed :=
  if p.length < 11 then .badLength
  else if bitAt p 5 2 then
    match targetOf (p.drop 11) with
    | some t => .command (.play who (playArgsOf p (some t)))
    | none => .badLength
  else fixed p 11 (.play who (playArgsOf p none))

/-- The command that a kind and a payload spell (R187, R200). -/
def commandOf (kind : Nat) (p : List Byte) (who : Req) : Parsed :=
  match kind with
  | 0x01 => fixed p 0 (.identify who)
  | 0x02 => fixed p 0 (.readStatus who)
  | 0x03 => fixed p 1 (.setNoticeDestination who (byteAt p 0))
  | 0x04 => fixed p 2 (.setGroups who (maskAt p 0))
  | 0x05 => fixed p 7 (.setOutput who (byteAt p 0) (byteAt p 1) (flagAt p 2) (maskAt p 3) (p.getD 5 0) (byteAt p 6))
  | 0x06 => fixed p 0 (.restart who)
  | 0x08 => fixed p 0 (.readPorts who)
  | 0x09 => fixed p 7 (.setRingParameters who (byteAt p 0) (natOf (slice p 1 4)) (wordAt p 5))
  | 0x0C => fixed p 2 (.send who (byteAt p 0) (byteAt p 1))
  | 0x0D => fixed p 1 (.unsend who (byteAt p 0))
  | 0x0E => fixed p 3 (.readSlots who (byteAt p 0) (byteAt p 1) (byteAt p 2))
  | 0x10 => fixed p 7 (.writeZone who (byteAt p 0) (wordAt p 1) (byteAt p 3) (byteAt p 4) (levelAt p 5))
  | 0x11 => fixed p 4 (.setVolume who (wordAt p 0) (levelAt p 2))
  | 0x12 => fixed p 1 (.readZone who (byteAt p 0))
  | 0x13 => bindOf p who
  | 0x14 => fixed p 1 (.unbind who (byteAt p 0))
  | 0x15 => fixed p 1 (.readBinding who (byteAt p 0))
  | 0x18 => fixed p 7 (.writeClass who (byteAt p 0) (byteAt p 1) (levelAt p 2) (byteAt p 4) (p.getD 5 0) (byteAt p 6))
  | 0x19 => fixed p 1 (.readClass who (byteAt p 0))
  | 0x1A => fixed p 1 (.readStack who (byteAt p 0))
  | 0x20 => fixed p 3 (.setAlarm who (byteAt p 0) (maskAt p 1))
  | 0x21 => fixed p 0 (.readAlarm who)
  | 0x24 => fixed p 6 (.writeStation who (byteAt p 0) (wordAt p 1) (byteAt p 3) (byteAt p 4) (flagAt p 5))
  | 0x25 => fixed p 4 (.call who (byteAt p 0) (wordAt p 1) (flagAt p 3))
  | 0x26 => fixed p 1 (.answer who (byteAt p 0))
  | 0x27 => fixed p 1 (.hangup who (byteAt p 0))
  | 0x28 => fixed p 3 (.readCalls who (byteAt p 0) (byteAt p 1) (byteAt p 2))
  | 0x2C => playOf p who
  | 0x2D => fixed p 1 (.stop who (byteAt p 0))
  | 0x2E => fixed p 0 (.readPlayers who)
  | 0x30 => fixed p 2 (.erase who (wordAt p 0))
  | 0x31 => if p.length < 4 then .badLength else .command (.writeData who (wordAt p 0) (wordAt p 2) (p.drop 4))
  | 0x32 => fixed p 5 (.readData who (wordAt p 0) (wordAt p 2) (byteAt p 4))
  | 0x33 => fixed p 0 (.saveConfig who)
  | 0x34 => fixed p 0 (.reloadSignals who)
  | _ => .unknownKind

/-- The work of the block that owns a command's state, once the command is taken (R187). Events are no commands. -/
def Node.manage (n : Node) (i : Instr) : Node :=
  match i with
  | .readPorts who => n.readPorts who
  | .setRingParameters who threshold hold orphan => n.setRingParameters who threshold hold orphan
  | .send who input cls => n.sendTalk who input cls
  | .unsend who input => n.unsendTalk who input
  | .readSlots who view first count => n.readSlots who view first count
  | .writeZone who zone logical fireZone kind floor => n.writeZone who zone logical fireZone kind floor
  | .setVolume who logical level => n.setVolume who logical level
  | .readZone who zone => n.readZone who zone
  | .bind who kind index cls gain autoEnd cookie target => n.bindSource who kind index cls gain autoEnd cookie target
  | .unbind who id => n.unbindId who id
  | .readBinding who id => n.readBinding who id
  | .writeClass who cls equal duck volume kinds limit => n.writeClass who cls equal duck volume kinds limit
  | .readClass who cls => n.readClass who cls
  | .readStack who zone => n.readStack who zone
  | .setAlarm who code fireZones => n.setAlarm who code fireZones
  | .readAlarm who => n.readAlarm who
  | .writeStation who station number mic speaker auto => n.writeStation who station number mic speaker auto
  | .call who station number priority => n.placeCall who station number priority
  | .answer who id => n.answerId who id
  | .hangup who id => n.hangupId who id
  | .readCalls who view first count => n.readCalls who view first count
  | .play who args => n.takePlay who args
  | .stop who player => n.takeStop who player
  | .readPlayers who => n.readPlayers who
  | .erase who sector => n.takeErase who sector
  | .writeData who sector offset data => n.takeWrite who sector offset data
  | .readData who sector offset count => n.takeRead who sector offset count
  | .saveConfig who => n.takeSave who
  | .reloadSignals who => n.takeReload who
  | .identify who => n.identify who
  | .readStatus who => n.readStatus who
  | .setNoticeDestination who address => n.setNoticeDestination who address
  | .setGroups who mask => n.setGroups who mask
  | .setOutput who output source invert zones kinds param => n.setOutput who output source invert zones kinds param
  | .restart who => n.takeRestart who
  | _ => n

/-- The work of a command packet, by its kind and length (R187). -/
def Node.dispatch (n : Node) (p : Packet) (who : Req) : Node :=
  match commandOf p.kind p.payload who with
  | .command i => n.manage i
  | .badLength => n.respond who p.kind .badLength []
  | .unknownKind => n.respond who p.kind .unknownKind []

/-- The head of the inbound queue is taken: a command when there is command room; a response, a notice or a packet of an
unknown kind is discarded; signalling is left to the Call Controller (R185, R187). -/
def Node.takeHead (n : Node) : Node :=
  match n.lane.inbound with
  | [] => n
  | p :: _ =>
    let who : Req := { src := p.src, tag := p.tag }
    if !n.running ∨ n.mgmt.held then n
    else if 0x01 ≤ p.kind ∧ p.kind ≤ 0x3F then
      if n.takesCommands then n.popInbound.taken who fun m => m.dispatch p who else n
    else if 0x90 ≤ p.kind ∧ p.kind ≤ 0x94 then n
    else n.popInbound

end Sys2Proof.Machine
end

