-- ==== Sys2Proof/Machine/Management.lean ====
section
/-! DEFINITION. The meanings of the 35 management rows: the event in which the Management Responder takes the command from
the sender named (R187; log 1). Each is its own definition over its block's work. -/

namespace Sys2Proof.Machine

/-- READ PORTS (R22). -/
def execReadPorts (who : Req) (s : State) : Host.Outcome State Fault Refusal :=
  onNode (fun n => n.taken who fun m => m.readPorts who) s

/-- SET RING PARAMETERS (R23). -/
def execSetRingParameters (who : Req) (threshold hold orphan : Nat) (s : State) : Host.Outcome State Fault Refusal :=
  onNode (fun n => n.taken who fun m => m.setRingParameters who threshold hold orphan) s

/-- SEND (R40). -/
def execSend (who : Req) (input cls : Nat) (s : State) : Host.Outcome State Fault Refusal :=
  onNode (fun n => n.taken who fun m => m.sendTalk who input cls) s

/-- UNSEND (R41). -/
def execUnsend (who : Req) (input : Nat) (s : State) : Host.Outcome State Fault Refusal :=
  onNode (fun n => n.taken who fun m => m.unsendTalk who input) s

/-- READ SLOTS (R42). -/
def execReadSlots (who : Req) (view first count : Nat) (s : State) : Host.Outcome State Fault Refusal :=
  onNode (fun n => n.taken who fun m => m.readSlots who view first count) s

/-- WRITE ZONE (R45). -/
def execWriteZone (who : Req) (zone logical fireZone kind : Nat) (floor : Int)
    (s : State) : Host.Outcome State Fault Refusal :=
  onNode (fun n => n.taken who fun m => m.writeZone who zone logical fireZone kind floor) s

/-- SET VOLUME (R46). -/
def execSetVolume (who : Req) (logical : Nat) (level : Int) (s : State) : Host.Outcome State Fault Refusal :=
  onNode (fun n => n.taken who fun m => m.setVolume who logical level) s

/-- READ ZONE (R59). -/
def execReadZone (who : Req) (zone : Nat) (s : State) : Host.Outcome State Fault Refusal :=
  onNode (fun n => n.taken who fun m => m.readZone who zone) s

/-- BIND (R53, R54). -/
def execBind (who : Req) (kind index cls : Nat) (gain : Int) (autoEnd : Bool) (cookie : Nat) (target : Target)
    (s : State) : Host.Outcome State Fault Refusal :=
  onNode (fun n => n.taken who fun m => m.bindSource who kind index cls gain autoEnd cookie target) s

/-- UNBIND (R55). -/
def execUnbind (who : Req) (id : Nat) (s : State) : Host.Outcome State Fault Refusal :=
  onNode (fun n => n.taken who fun m => m.unbindId who id) s

/-- READ BINDING (R60). -/
def execReadBinding (who : Req) (id : Nat) (s : State) : Host.Outcome State Fault Refusal :=
  onNode (fun n => n.taken who fun m => m.readBinding who id) s

/-- WRITE CLASS (R64). -/
def execWriteClass (who : Req) (cls equal : Nat) (duck : Int) (volume : Nat) (kinds : Byte) (limit : Nat)
    (s : State) : Host.Outcome State Fault Refusal :=
  onNode (fun n => n.taken who fun m => m.writeClass who cls equal duck volume kinds limit) s

/-- READ CLASS (R66). -/
def execReadClass (who : Req) (cls : Nat) (s : State) : Host.Outcome State Fault Refusal :=
  onNode (fun n => n.taken who fun m => m.readClass who cls) s

/-- READ STACK (R79). -/
def execReadStack (who : Req) (zone : Nat) (s : State) : Host.Outcome State Fault Refusal :=
  onNode (fun n => n.taken who fun m => m.readStack who zone) s

/-- SET ALARM (R96). -/
def execSetAlarm (who : Req) (code : Nat) (fireZones : Mask16) (s : State) : Host.Outcome State Fault Refusal :=
  onNode (fun n => n.taken who fun m => m.setAlarm who code fireZones) s

/-- READ ALARM (R102). -/
def execReadAlarm (who : Req) (s : State) : Host.Outcome State Fault Refusal :=
  onNode (fun n => n.taken who fun m => m.readAlarm who) s

/-- WRITE STATION (R124). -/
def execWriteStation (who : Req) (station number mic speaker : Nat) (auto : Bool)
    (s : State) : Host.Outcome State Fault Refusal :=
  onNode (fun n => n.taken who fun m => m.writeStation who station number mic speaker auto) s

/-- CALL (R128). -/
def execCall (who : Req) (station number : Nat) (priority : Bool) (s : State) : Host.Outcome State Fault Refusal :=
  onNode (fun n => n.taken who fun m => m.placeCall who station number priority) s

/-- ANSWER (R135). -/
def execAnswer (who : Req) (id : Nat) (s : State) : Host.Outcome State Fault Refusal :=
  onNode (fun n => n.taken who fun m => m.answerId who id) s

/-- HANGUP (R142). -/
def execHangup (who : Req) (id : Nat) (s : State) : Host.Outcome State Fault Refusal :=
  onNode (fun n => n.taken who fun m => m.hangupId who id) s

/-- READ CALLS (R146). -/
def execReadCalls (who : Req) (view first count : Nat) (s : State) : Host.Outcome State Fault Refusal :=
  onNode (fun n => n.taken who fun m => m.readCalls who view first count) s

/-- PLAY (R148, R150, R151). -/
def execPlay (who : Req) (args : PlayArgs) (s : State) : Host.Outcome State Fault Refusal :=
  onNode (fun n => n.taken who fun m => m.takePlay who args) s

/-- STOP (R148, R161). -/
def execStop (who : Req) (player : Nat) (s : State) : Host.Outcome State Fault Refusal :=
  onNode (fun n => n.taken who fun m => m.takeStop who player) s

/-- READ PLAYERS (R164). -/
def execReadPlayers (who : Req) (s : State) : Host.Outcome State Fault Refusal :=
  onNode (fun n => n.taken who fun m => m.readPlayers who) s

/-- ERASE (R170). -/
def execErase (who : Req) (sector : Nat) (s : State) : Host.Outcome State Fault Refusal :=
  onNode (fun n => n.taken who fun m => m.takeErase who sector) s

/-- WRITE DATA (R170). -/
def execWriteData (who : Req) (sector offset : Nat) (data : List Byte) (s : State) : Host.Outcome State Fault Refusal :=
  onNode (fun n => n.taken who fun m => m.takeWrite who sector offset data) s

/-- READ DATA (R171). -/
def execReadData (who : Req) (sector offset count : Nat) (s : State) : Host.Outcome State Fault Refusal :=
  onNode (fun n => n.taken who fun m => m.takeRead who sector offset count) s

/-- SAVE CONFIG (R176). -/
def execSaveConfig (who : Req) (s : State) : Host.Outcome State Fault Refusal :=
  onNode (fun n => n.taken who fun m => m.takeSave who) s

/-- RELOAD SIGNALS (R177). -/
def execReloadSignals (who : Req) (s : State) : Host.Outcome State Fault Refusal :=
  onNode (fun n => n.taken who fun m => m.takeReload who) s

/-- IDENTIFY (R193). -/
def execIdentify (who : Req) (s : State) : Host.Outcome State Fault Refusal :=
  onNode (fun n => n.taken who fun m => m.identify who) s

/-- READ STATUS (R194). -/
def execReadStatus (who : Req) (s : State) : Host.Outcome State Fault Refusal :=
  onNode (fun n => n.taken who fun m => m.readStatus who) s

/-- SET NOTICE DESTINATION (R189). -/
def execSetNoticeDestination (who : Req) (address : Nat) (s : State) : Host.Outcome State Fault Refusal :=
  onNode (fun n => n.taken who fun m => m.setNoticeDestination who address) s

/-- SET GROUPS (R190). -/
def execSetGroups (who : Req) (mask : Mask16) (s : State) : Host.Outcome State Fault Refusal :=
  onNode (fun n => n.taken who fun m => m.setGroups who mask) s

/-- SET OUTPUT (R192). -/
def execSetOutput (who : Req) (output source : Nat) (invert : Bool) (zones : Mask16) (kinds : Byte) (param : Nat)
    (s : State) : Host.Outcome State Fault Refusal :=
  onNode (fun n => n.taken who fun m => m.setOutput who output source invert zones kinds param) s

/-- RESTART (R195). -/
def execRestart (who : Req) (s : State) : Host.Outcome State Fault Refusal :=
  onNode (fun n => n.taken who fun m => m.takeRestart who) s

end Sys2Proof.Machine
end

