-- ==== Sys2Proof/Machine/RingRows.lean ====
section
/-! DEFINITION. The meanings of the rows of resets, start-up, the ring, the ports and the frame master. A row whose event is
not due changes nothing (log 2). -/

namespace Sys2Proof.Machine

/-! ## Resets and start-up (R195, R196) -/

/-- POWER_ON (R195): the part starts with the pins as they stand. -/
def execPowerOn (pins : Pins) (s : State) : Host.Outcome State Fault Refusal :=
  onNode (fun n => n.resetWith .power pins false) s

/-- RESET_N_ASSERT (R195). -/
def execResetNAssert (s : State) : Host.Outcome State Fault Refusal :=
  onNode (fun n => n.resetWith n.pinCause n.pins true) s

/-- The start-up sequence begins at the release, when RESET_N was held (R195). -/
def Node.release (n : Node) : Node := if n.mgmt.held then n.resetWith n.mgmt.cause n.pins false else n

/-- RESET_N_RELEASE (R195). -/
def execResetNRelease (s : State) : Host.Outcome State Fault Refusal := onNode Node.release s

/-- The 4,800th frame time after a RESTART is the coming one (R195). -/
def Node.restartDue (n : Node) : Bool := n.mgmt.restart.any fun k => decide (4800 ≤ k + 1)

/-- The reset of a RESTART, when due. -/
def Node.restartNow (n : Node) : Node := if n.restartDue then n.restartReset.withLinks n else n

/-- RESTART_TIMEOUT (R195). -/
def execRestartTimeout (s : State) : Host.Outcome State Fault Refusal := onNode Node.restartNow s

/-- The config image is read in the second frame time of STARTING (R174, R196). -/
def Node.configNow (n : Node) : Node := if n.startingUp && !n.mgmt.configRead then n.loadConfig else n

/-- CONFIG_IMAGE_LOAD (R174). -/
def execConfigImageLoad (s : State) : Host.Outcome State Fault Refusal := onNode Node.configNow s

/-- The end of STARTING at frame time 2, the loads being complete (R196). -/
def Node.leaveNow (n : Node) : Node :=
  if n.startingUp && n.mgmt.configRead && decide (2 ≤ n.ring.counter + 1) then n.leave else n

/-- LEAVE_STARTING (R196). -/
def execLeaveStarting (s : State) : Host.Outcome State Fault Refusal := onNode Node.leaveNow s

/-! ## Frame times (R3, R5) -/

/-- FRAME_TIME (R3; log 4). -/
def execFrameTime (pins : Pins) (s : State) : Host.Outcome State Fault Refusal := onNode (fun n => n.frameTick pins) s

/-- PORT_FRAME_TIME (R5): one or both receivers' frame time. -/
def execPortFrameTime (west east : Option Rx) (s : State) : Host.Outcome State Fault Refusal :=
  onNode (fun n => n.portFrame west east) s

/-- PORT_SILENT_TIMEOUT (R5). -/
def execPortSilentTimeout (port : Port) (s : State) : Host.Outcome State Fault Refusal :=
  onNode (fun n => if n.bringsSilence port then n.onePort port [] else n) s

/-- PORT_LOCK (R6). -/
def execPortLock (port : Port) (rx : Rx) (s : State) : Host.Outcome State Fault Refusal :=
  onNode (fun n => if n.bringsLock port rx then n.onePort port rx else n) s

/-- PORT_DEGRADE (R7). -/
def execPortDegrade (port : Port) (rx : Rx) (s : State) : Host.Outcome State Fault Refusal :=
  onNode (fun n => if n.bringsDegrade port rx then n.onePort port rx else n) s

/-- ERROR_WINDOW_END (R7). -/
def execErrorWindowEnd (port : Port) (rx : Rx) (s : State) : Host.Outcome State Fault Refusal :=
  onNode (fun n => if n.bringsWindowEnd port rx then n.onePort port rx else n) s

/-- PORT_QUALIFIED (R12). -/
def execPortQualified (port : Port) (rx : Rx) (s : State) : Host.Outcome State Fault Refusal :=
  onNode (fun n => if n.bringsUse port rx then n.onePort port rx else n) s

/-! ## Frames and the master (R2, R18, R20) -/

/-- PROCESS_FRAME (R2). -/
def execProcessFrame (s : State) : Host.Outcome State Fault Refusal := onNode Node.processWaiting s

/-- RETURNED_FRAME (R18). -/
def execReturnedFrame (s : State) : Host.Outcome State Fault Refusal := onNode Node.returnedWaiting s

/-- The quiet count reaches 48,000 at its next count (R20). -/
def Node.resumeDue (n : Node) : Bool :=
  n.mayResume && decide (48000 ≤ n.ring.quiet + 1) && !(n.waitingFrame.any fun x => n.isForeign x.2)

/-- MASTER_RESUME (R20). -/
def execMasterResume (s : State) : Host.Outcome State Fault Refusal := onNode (fun n => if n.resumeDue then n.resume else n) s

end Sys2Proof.Machine
end

