-- ==== Sys2Proof/Machine/SoundRows.lean ====
section
/-! DEFINITION. The meanings of the rows of slots, zones, alarms and players: each the next count of its object, taken when
that count brings the row's event (log 2), its share of the coming frame time noted (log 3). -/

namespace Sys2Proof.Machine

/-! ## Slots (R29, R34, R36) -/

/-- The undamaged returned frame that waits at a master (R18). -/
def Node.returnWaiting (n : Node) : Option Frame :=
  n.waitingFrame.bind fun x =>
    if n.isMaster && x.2.undamaged && decide (x.2.master.toNat = n.address) then some x.2 else none

/-- The waiting return brings an entry's orphan count to the limit (R29). -/
def Node.orphanDue (n : Node) (k : Nat) : Bool :=
  n.returnWaiting.any fun f =>
    (headerOf f.slots k).stamped && !(headerOf f.slots k).fresh && (n.reg k).owner ≠ 0 &&
      decide (n.ring.orphanLimit ≤ (n.reg k).orphan + 1)

/-- ORPHAN_RECLAIM (R29). -/
def execOrphanReclaim (slot : Nat) (s : State) : Host.Outcome State Fault Refusal :=
  onNode (fun n => if n.orphanDue slot then n.orphanStep slot false else n) s

/-- A claim's age reaches 480 at its next count (R34). -/
def Node.claimDue (n : Node) (u : User) : Bool := (n.openClaim u).any fun c => decide (480 ≤ c.age + 1)

/-- CLAIM_TIMEOUT (R34). -/
def execClaimTimeout (user : User) (s : State) : Host.Outcome State Fault Refusal :=
  onNode (fun n => if n.claimDue user then n.failClaim user else n) s

/-- RELEASE_OWED_EXPIRY (R36). -/
def execReleaseOwedExpiry (slot : Nat) (s : State) : Host.Outcome State Fault Refusal :=
  onNode (fun n => if (n.entry slot).owed = 1 then n.clearOwed slot else n) s

/-! ## Zones (R56, R77, R82, R83) -/

/-- A layer's fade ends at its next fall (R77). -/
def Node.fadeDue (n : Node) (z id : Nat) : Bool := n.started && (layerOf (n.stack z) id).any Layer.endDue

/-- LAYER_FADE_END (R77). -/
def execLayerFadeEnd (zone binding : Nat) (s : State) : Host.Outcome State Fault Refusal :=
  onNode (fun n => if n.fadeDue zone binding then n.removeLayer zone binding else n) s

/-- The header that the coming frame shows for a slot: the waiting frame's at a node that relays it, the register's at a master
that generates and is not ISOLATED (R56, R138). -/
def Node.comingHeader (n : Node) (k : Nat) : Option SlotField :=
  if n.willGenerate then (if n.ring.wrap = .isolated then none else some (headerOf n.registerHeaders k))
  else n.waitingFrame.bind fun x => if x.2.undamaged then some (headerOf x.2.slots k) else none

/-- A binding's free run reaches 48 at the coming frame while its end has not begun (R56). -/
def Node.autoEndDue (n : Node) (id : Nat) : Bool :=
  n.started && (n.binding id).any fun b =>
    decide (48 ≤ b.freeRun + 1 ∧ b.ending = .none) && b.runSlot.any fun k => (n.comingHeader k).any SlotField.stampedFree

/-- The last free frame of a run (R56). -/
def Node.autoEndRow (n : Node) (id : Nat) : Node :=
  if n.autoEndDue id then (n.modBinding id fun b => { b with freeRun := b.freeRun + 1 }).autoEndNow id else n

/-- AUTO_END (R56). -/
def execAutoEnd (id : Nat) (s : State) : Host.Outcome State Fault Refusal := onNode (fun n => n.autoEndRow id) s

/-- The volume count reaches 12 at its next count (R82). -/
def Node.volumeDue (n : Node) (z : Nat) : Bool :=
  n.started && !n.took (.volume z) && (n.zone z).vol ≠ (n.zone z).volTarget && decide (12 ≤ (n.zone z).volCount + 1)

/-- VOLUME_STEP (R82). -/
def execVolumeStep (zone : Nat) (s : State) : Host.Outcome State Fault Refusal :=
  onNode (fun n => if n.volumeDue zone then (n.modZone zone Zone.rampVolume).mark (.volume zone) else n) s

/-- The duck count reaches 24 at its next count (R83). -/
def Layer.liftDue (l : Layer) : Bool := l.duck < l.target && decide (24 ≤ l.duckCount + 1)

/-- A binding's layer lifts its duck by one step. -/
def Layer.liftFor (id : Nat) (l : Layer) : Layer := if l.binding = id then l.rampDuck else l

/-- DUCK_LIFT_STEP (R83). -/
def execDuckLiftStep (zone binding : Nat) (s : State) : Host.Outcome State Fault Refusal :=
  onNode (fun n =>
    if n.started && !n.took (.duck zone binding) && (layerOf (n.stack zone) binding).any Layer.liftDue then
      (n.setStack zone ((n.stack zone).map (Layer.liftFor binding))).mark (.duck zone binding)
    else n) s

/-! ## Alarms (R99, R109, R115, R117) -/

/-- The head operation runs a phase. -/
def Node.headRuns (n : Node) : Bool := n.library.ops.head?.any fun op => op.phase ≠ .waiting

/-- Channel `a` has entered SIGNAL, or taken a new signal, since `old` (R112, R117). -/
def Node.newSignal (n old : Node) (a : Nat) : Bool :=
  (n.channel a).phase = .signal && (n.channel a).timer = 0 &&
    ((old.channel a).phase ≠ .signal || (old.channel a).signal ≠ (n.channel a).signal)

/-- What an event row of the coming frame time has started since `old`, a flash phase or a channel's SIGNAL, is counted from the
frame time after it (R115, R168; log 3). -/
def Node.startedSince (n old : Node) : Node :=
  let n1 := if n.headRuns && n.library.ops.head? != old.library.ops.head? then n.mark .headStart else n
  (([0, 1].filter (n.newSignal old)).map Share.period).foldl Node.mark n1

/-- CONTACT_DEBOUNCE (R99): the pin reads as it was last read. -/
def execContactDebounce (contact : Nat) (s : State) : Host.Outcome State Fault Refusal :=
  onNode (fun n =>
    if n.started && n.contactDiffers contact && decide (960 ≤ (n.contact contact).run + 1) then
      (n.contactChange contact).startedSince n
    else n) s

/-- The coming output of a generator is the last of its step (R109). -/
def Node.stepEndDue (n : Node) (g : Gen) : Bool :=
  n.started && !n.took (.generator g) && (n.generator g).stepDue (n.alarm.signalOf (n.generator g).signal)

/-- GENERATOR_STEP_END (R109). -/
def execGeneratorStepEnd (gen : Gen) (s : State) : Host.Outcome State Fault Refusal :=
  onNode (fun n => if n.stepEndDue gen then (n.genTick gen).mark (.generator gen) else n) s

/-- The end of a period, its share of the coming frame time taken. -/
def Node.periodEndEarly (n : Node) (a : Nat) : Node := (n.periodEnd a).mark (.period a)

/-- The ends of all periods due; P1 gives 0 in a frame time in which it begins a VOICE (R116). -/
def Node.periodsEnd (n : Node) : Node :=
  let n1 := n.periodsDue.foldl Node.periodEndEarly n
  if n.voiceChannel.isNone && n1.voiceChannel.isSome then n1.mark (.player 1) else n1

/-- ALARM_PERIOD_END (R115): with the other channel's, when both are due (R116). -/
def execAlarmPeriodEnd (channel : Nat) (s : State) : Host.Outcome State Fault Refusal :=
  onNode (fun n => if n.started && n.periodDue channel then n.periodsEnd else n) s

/-- The last output of a VOICE on its channel, and the end of VOICE (R117). -/
def Node.voiceLast (n : Node) : Node :=
  match n.voiceChannel with
  | none => n.playerEnd 1
  | some a => ((n.latchChannel a).playerEnd 1).mark (.generator (.channel a))

/-- P1's coming output ends its VOICE (R117). -/
def Node.voiceEndRow (n : Node) : Node :=
  if n.started && (n.player 1).voice.isSome && !n.took (.player 1) && ((n.playerTick 1).player 1).passDone then
    ((n.playerTick 1).voiceLast.startedSince n).mark (.player 1)
  else n

/-- VOICE_END (R117). -/
def execVoiceEnd (s : State) : Host.Outcome State Fault Refusal := onNode Node.voiceEndRow s

/-! ## Players (R152, R157) -/

/-- WAIT_GATE_OPEN (R152). -/
def execWaitGateOpen (player : Nat) (s : State) : Host.Outcome State Fault Refusal := onNode (fun n => n.testGate player) s

/-- JOB_TIMEOUT (R152). -/
def execJobTimeout (player : Nat) (s : State) : Host.Outcome State Fault Refusal :=
  onNode (fun n =>
    if (n.player player).job.state = .waiting ∧ 1440000 ≤ (n.player player).job.timer + 1 then n.jobEnd player .timeout
    else n) s

/-- A player's coming output is the last of a pass (R157). -/
def Node.passEndDue (n : Node) (p : Nat) : Bool :=
  n.started && !n.took (.player p) && (n.player p).voice.isNone && ((n.playerTick p).player p).passDone

/-- PASS_END (R157). -/
def execPassEnd (player : Nat) (s : State) : Host.Outcome State Fault Refusal :=
  onNode (fun n => if n.passEndDue player then ((n.playerTick player).playerEnd player).mark (.player player) else n) s

/-- The gap is over at the timer's next count (R157). -/
def Node.gapDue (n : Node) (p : Nat) : Bool :=
  let j := (n.player p).job
  n.started && !n.took (.player p) && j.state = .gap && decide (j.gap ≤ j.timer + 1)

/-- GAP_END (R157). -/
def execGapEnd (player : Nat) (s : State) : Host.Outcome State Fault Refusal :=
  onNode (fun n =>
    if n.gapDue player then ((n.playerTick player).modJob player Job.nextPass).mark (.player player) else n) s

end Sys2Proof.Machine
end

