-- ==== Sys2Proof/Machine/CallRows.lean ====
section
/-! DEFINITION. The meanings of the rows of calls, flash phases and the inbound queue (log 2, log 5). -/

namespace Sys2Proof.Machine

/-! ## Signalling (R126, R130-R136) -/

/-- OFFER (R133). -/
def execOffer (s : State) : Host.Outcome State Fault Refusal := onNode (fun n => n.takeSignalling 0x90 Node.takeOffer) s

/-- RINGING (R130, R132). -/
def execRinging (s : State) : Host.Outcome State Fault Refusal := onNode (fun n => n.takeSignalling 0x91 Node.takeRinging) s

/-- ANSWERED (R131). -/
def execAnswered (s : State) : Host.Outcome State Fault Refusal := onNode (fun n => n.takeSignalling 0x92 Node.takeAnswered) s

/-- REJECT (R130, R131). -/
def execReject (s : State) : Host.Outcome State Fault Refusal := onNode (fun n => n.takeSignalling 0x93 Node.takeReject) s

/-- CLEAR (R126, R131, R134, R136). -/
def execClear (s : State) : Host.Outcome State Fault Refusal := onNode (fun n => n.takeSignalling 0x94 Node.takeClear) s

/-! ## Timeouts and supervision (R130, R131, R136, R138) -/

/-- A record in state `st` reaches its limit at its timer's next count. -/
def Node.callDue (n : Node) (r : Nat) (st : CallState) : Bool :=
  (n.call r).state = st && (n.call r).limit.any fun l => decide (l ≤ (n.call r).timer + 1)

/-- OFFER_TIMEOUT (R130). -/
def execOfferTimeout (rec : Nat) (s : State) : Host.Outcome State Fault Refusal :=
  onNode (fun n => if n.callDue rec .offering then n.offerTimeout rec else n) s

/-- ALERTING_TIMEOUT (R131). -/
def execAlertingTimeout (rec : Nat) (s : State) : Host.Outcome State Fault Refusal :=
  onNode (fun n => if n.callDue rec .alerting then n.callEnd rec .noAnswer .here else n) s

/-- RINGING_TIMEOUT (R136). -/
def execRingingTimeout (rec : Nat) (s : State) : Host.Outcome State Fault Refusal :=
  onNode (fun n => if n.callDue rec .ringing then n.callEnd rec .noAnswer .here else n) s

/-- The coming frame brings a record's path count to 48 (R138); none does in a held frame time, a master's among them. -/
def Node.pathDue (n : Node) (r : Nat) : Bool :=
  let c := n.call r
  c.supervises && decide (48 ≤ c.path + 1) && (n.willGenerate || !c.changed) && !n.heldTime &&
    c.listen.any fun k => (n.comingHeader k).any c.slotGone

/-- The 48th frame that shows the listen slot free or another's (R138). -/
def Node.pathRow (n : Node) (r : Nat) : Node :=
  if n.pathDue r then (n.modCall r fun c => { c with path := c.path + 1 }).callEnd r .pathLost .here else n

/-- PATH_LOST (R138). -/
def execPathLost (rec : Nat) (s : State) : Host.Outcome State Fault Refusal := onNode (fun n => n.pathRow rec) s

/-- SEND_LIST_HANDOFF (R127). -/
def execSendListHandoff (s : State) : Host.Outcome State Fault Refusal := onNode Node.handOff s

/-! ## Flash (R168, R172) -/

/-- The head's phase completes at its timer's next count (R168). -/
def Node.phaseDue (n : Node) : Option FlashOp :=
  match n.library.ops with
  | [] => none
  | op :: _ => if op.phase ≠ .waiting ∧ op.duration ≤ op.timer + 1 ∧ n.tookFlash = false then some op else none

/-- The completion of the head's phase, when due. -/
def Node.phaseRow (n : Node) : Node :=
  match n.phaseDue with
  | some op => ((n.completePhase op).startedSince n).mark (.flash (bankOf op.sector))
  | none => n

/-- FLASH_PHASE_COMPLETE (R168). -/
def execFlashPhaseComplete (s : State) : Host.Outcome State Fault Refusal := onNode Node.phaseRow s

/-- SIGLOCK is read asserted (R172): a shielded head is abandoned, its share of the coming frame time taken. -/
def Node.siglockRow (n : Node) : Node :=
  let n1 := { n with pins := { n.pins with siglock := true } }
  match n1.library.ops with
  | [] => n1
  | op :: _ => if op.shielded then (n1.siglockRead.startedSince n1).mark (.flash (bankOf op.sector)) else n1

/-- SIGLOCK_ASSERT (R172). -/
def execSiglockAssert (s : State) : Host.Outcome State Fault Refusal := onNode Node.siglockRow s

/-! ## The inbound queue (R185, R187) -/

/-- TAKE_COMMAND (R185, R187). -/
def execTakeCommand (s : State) : Host.Outcome State Fault Refusal := onNode Node.takeHead s

end Sys2Proof.Machine
end

