-- ==== Sys2Proof/Machine/Dispatch.lean ====
section
/-! DEFINITION. One arm for each command: its meaning. -/

namespace Sys2Proof.Machine

def exec (i : Instr) (s : State) : Host.Outcome State Fault Refusal :=
  match i with
  | .readPorts who => Sys2Proof.Machine.execReadPorts who s
  | .setRingParameters who threshold hold orphan => Sys2Proof.Machine.execSetRingParameters who threshold hold orphan s
  | .send who input cls => Sys2Proof.Machine.execSend who input cls s
  | .unsend who input => Sys2Proof.Machine.execUnsend who input s
  | .readSlots who view first count => Sys2Proof.Machine.execReadSlots who view first count s
  | .writeZone who zone logical fireZone kind floor => Sys2Proof.Machine.execWriteZone who zone logical fireZone kind floor s
  | .setVolume who logical level => Sys2Proof.Machine.execSetVolume who logical level s
  | .readZone who zone => Sys2Proof.Machine.execReadZone who zone s
  | .bind who kind index cls gain autoEnd cookie target => Sys2Proof.Machine.execBind who kind index cls gain autoEnd cookie target s
  | .unbind who id => Sys2Proof.Machine.execUnbind who id s
  | .readBinding who id => Sys2Proof.Machine.execReadBinding who id s
  | .writeClass who cls equal duck volume kinds limit => Sys2Proof.Machine.execWriteClass who cls equal duck volume kinds limit s
  | .readClass who cls => Sys2Proof.Machine.execReadClass who cls s
  | .readStack who zone => Sys2Proof.Machine.execReadStack who zone s
  | .setAlarm who code fireZones => Sys2Proof.Machine.execSetAlarm who code fireZones s
  | .readAlarm who => Sys2Proof.Machine.execReadAlarm who s
  | .writeStation who station number mic speaker auto => Sys2Proof.Machine.execWriteStation who station number mic speaker auto s
  | .call who station number priority => Sys2Proof.Machine.execCall who station number priority s
  | .answer who id => Sys2Proof.Machine.execAnswer who id s
  | .hangup who id => Sys2Proof.Machine.execHangup who id s
  | .readCalls who view first count => Sys2Proof.Machine.execReadCalls who view first count s
  | .play who args => Sys2Proof.Machine.execPlay who args s
  | .stop who player => Sys2Proof.Machine.execStop who player s
  | .readPlayers who => Sys2Proof.Machine.execReadPlayers who s
  | .erase who sector => Sys2Proof.Machine.execErase who sector s
  | .writeData who sector offset data => Sys2Proof.Machine.execWriteData who sector offset data s
  | .readData who sector offset count => Sys2Proof.Machine.execReadData who sector offset count s
  | .saveConfig who => Sys2Proof.Machine.execSaveConfig who s
  | .reloadSignals who => Sys2Proof.Machine.execReloadSignals who s
  | .identify who => Sys2Proof.Machine.execIdentify who s
  | .readStatus who => Sys2Proof.Machine.execReadStatus who s
  | .setNoticeDestination who address => Sys2Proof.Machine.execSetNoticeDestination who address s
  | .setGroups who mask => Sys2Proof.Machine.execSetGroups who mask s
  | .setOutput who output source invert zones kinds param => Sys2Proof.Machine.execSetOutput who output source invert zones kinds param s
  | .restart who => Sys2Proof.Machine.execRestart who s
  | .powerOn pins => Sys2Proof.Machine.execPowerOn pins s
  | .resetNAssert => Sys2Proof.Machine.execResetNAssert s
  | .resetNRelease => Sys2Proof.Machine.execResetNRelease s
  | .restartTimeout => Sys2Proof.Machine.execRestartTimeout s
  | .configImageLoad => Sys2Proof.Machine.execConfigImageLoad s
  | .leaveStarting => Sys2Proof.Machine.execLeaveStarting s
  | .frameTime pins => Sys2Proof.Machine.execFrameTime pins s
  | .portFrameTime west east => Sys2Proof.Machine.execPortFrameTime west east s
  | .portSilentTimeout port => Sys2Proof.Machine.execPortSilentTimeout port s
  | .portLock port rx => Sys2Proof.Machine.execPortLock port rx s
  | .portDegrade port rx => Sys2Proof.Machine.execPortDegrade port rx s
  | .errorWindowEnd port rx => Sys2Proof.Machine.execErrorWindowEnd port rx s
  | .portQualified port rx => Sys2Proof.Machine.execPortQualified port rx s
  | .processFrame => Sys2Proof.Machine.execProcessFrame s
  | .returnedFrame => Sys2Proof.Machine.execReturnedFrame s
  | .masterResume => Sys2Proof.Machine.execMasterResume s
  | .orphanReclaim slot => Sys2Proof.Machine.execOrphanReclaim slot s
  | .claimTimeout user => Sys2Proof.Machine.execClaimTimeout user s
  | .releaseOwedExpiry slot => Sys2Proof.Machine.execReleaseOwedExpiry slot s
  | .layerFadeEnd zone binding => Sys2Proof.Machine.execLayerFadeEnd zone binding s
  | .autoEnd id => Sys2Proof.Machine.execAutoEnd id s
  | .volumeStep zone => Sys2Proof.Machine.execVolumeStep zone s
  | .duckLiftStep zone binding => Sys2Proof.Machine.execDuckLiftStep zone binding s
  | .contactDebounce contact => Sys2Proof.Machine.execContactDebounce contact s
  | .generatorStepEnd gen => Sys2Proof.Machine.execGeneratorStepEnd gen s
  | .alarmPeriodEnd channel => Sys2Proof.Machine.execAlarmPeriodEnd channel s
  | .voiceEnd => Sys2Proof.Machine.execVoiceEnd s
  | .offer => Sys2Proof.Machine.execOffer s
  | .ringing => Sys2Proof.Machine.execRinging s
  | .answered => Sys2Proof.Machine.execAnswered s
  | .reject => Sys2Proof.Machine.execReject s
  | .clear => Sys2Proof.Machine.execClear s
  | .offerTimeout rec => Sys2Proof.Machine.execOfferTimeout rec s
  | .alertingTimeout rec => Sys2Proof.Machine.execAlertingTimeout rec s
  | .ringingTimeout rec => Sys2Proof.Machine.execRingingTimeout rec s
  | .pathLost rec => Sys2Proof.Machine.execPathLost rec s
  | .sendListHandoff => Sys2Proof.Machine.execSendListHandoff s
  | .waitGateOpen player => Sys2Proof.Machine.execWaitGateOpen player s
  | .jobTimeout player => Sys2Proof.Machine.execJobTimeout player s
  | .passEnd player => Sys2Proof.Machine.execPassEnd player s
  | .gapEnd player => Sys2Proof.Machine.execGapEnd player s
  | .flashPhaseComplete => Sys2Proof.Machine.execFlashPhaseComplete s
  | .siglockAssert => Sys2Proof.Machine.execSiglockAssert s
  | .takeCommand => Sys2Proof.Machine.execTakeCommand s

end Sys2Proof.Machine
end

