-- ==== Sys2Proof/Safety.lean ====
section
/-! DEFINITION. What is to hold of every state the part can reach: the invariant that the statements name, and the fields
that only a few named events write. -/

namespace Sys2Proof.Machine

/-- The flash store is in canonical form. -/
def Node.flashOk (n : Node) : Bool := Memory.wf n.library.flash

/-- The inbound queue holds at most its 4 packets (R181, R185). -/
def Node.inboundOk (n : Node) : Bool := n.lane.inbound.length ≤ 4

/-- How many records each table holds: zone records, bindings, classes, the local slot table, the master slot register, talk
records, contacts, alarm channels, stations, call records, players, status outputs. -/
def Node.lengths (n : Node) : List Nat :=
  [n.mixer.zones.length, n.mixer.bindings.length, n.mixer.classes.length, n.slots.table.length, n.slots.register.length,
    n.slots.talks.length, n.alarm.contacts.length, n.alarm.channels.length, n.calls.stations.length,
    n.calls.records.length, n.players.players.length, n.mgmt.outputs.length]

/-- Every table holds the records the manual gives it (R26, R30, R39, R43, R49, R61, R98, R111, R123, R125, R149, R191). -/
def Node.tablesOk (n : Node) : Bool := n.lengths = [16, 64, 8, 64, 64, 8, 2, 2, 8, 8, 2, 4]

/-- What the invariant says of the part. -/
def Node.ok (n : Node) : Bool := n.flashOk && n.inboundOk && n.tablesOk

/-- The invariant: the flash store is in canonical form, the inbound queue holds at most 4 packets, and every table holds
its records. -/
abbrev State.Inv (s : State) : Prop := s.node.ok = true

/-- The commands whose response their block holds, each with its reservation (R186): a SEND for each CLAIMING talk record, the
flash operations, the waiting READ DATA, and the PLAY and STOP that wait on a catalog read. -/
def Node.heldResponses (n : Node) : Nat :=
  n.slots.talks.countP (fun t => t.state = .claiming) + n.library.ops.length + n.library.readWaits.length +
    n.players.waits.length

/-- The record of each tied packet of the send list, and whether the packet closes its call (R127). -/
def tiedKeys (l : List SendEntry) : List (Nat × Bool) := l.filterMap fun e => e.tie.map fun t => (t.record, t.closing)

/-- The untied packets of the send list (R127). -/
def untiedCount (l : List SendEntry) : Nat := l.countP fun e => e.tie.isNone

/-- At most one tied packet of a record for its present call and one for its last, and at most 8 untied (R127). -/
def sendListOk (l : List SendEntry) : Bool :=
  decide (tiedKeys l).Nodup && (tiedKeys l).all (fun x => x.1 < 8) && decide (untiedCount l ≤ 8)

/-- The bounds of stacks and queues, with `owe` responses of the command in hand still to be enqueued: at most 6 layers in a
stack (R67), 4 flash operations (R168), 4 waiting READ DATA (R171), a reservation for each held response and an outbound load
of at most 8 (R186), the send list's bounds (R127), and 8 call records. -/
def Node.within (n : Node) (owe : Nat) : Bool :=
  n.mixer.zones.all (fun r => r.stack.length ≤ 6) && decide (n.library.ops.length ≤ 4) &&
    decide (n.library.readWaits.length ≤ 4) && decide (n.heldResponses + owe ≤ n.lane.reservations) &&
    decide (n.load ≤ 8) && sendListOk n.calls.sendList && decide (n.calls.records.length ≤ 8)

/-- Every stack and queue within its bounds, no command being in hand between two steps. -/
abbrev State.Bounded (s : State) : Prop := s.node.within 0 = true

/-- A zone record's settings: what the ramps, the mix and the stack write is set to its reset value. -/
def Zone.settings (r : Zone) : Zone := { r with vol := 0, volCount := 0, clips := 0, stack := [], out := 0 }

/-- The Ring Interface but for what every frame writes: arrivals, transmitters, relay store, generated window, quiet
count. -/
def Ring.settings (r : Ring) : Ring :=
  { r with westIn := .none, eastIn := .none, txEast := .reset, txWest := .reset, relay := { run := none, complete := none }
           genWindow := Ring.reset.genWindow, quiet := 0 }

/-- The fields that only their own commands, the loads and resets, port frame times, flash phases and the inbound queue's
own events write: flash, inbound packets, port records, wrap state, role, last-good store, ring parameters, frame counter,
zone settings, groups, notice destination, stations, status output selections, straps, pins, node state and reset
record. With them, how many records each table holds. -/
structure Kept where
  lengths : List Nat
  flash : List Host.Cell
  freeCount : Nat
  inbound : List Packet
  groups : BitVec 15
  noticeDest : Nat
  ring : Ring
  zones : List Zone
  stations : List Station
  outputs : List Selection
  node : NodeState
  address : Nat
  fmstr : Bool
  cause : ResetCause
  held : Bool
  configRead : Bool
  restarting : Bool
  signalTaken : Bool
  configTaken : Bool
  pins : Pins
  deriving DecidableEq, Repr

/-- Those fields of a part. -/
def Node.kept (n : Node) : Kept where
  lengths := n.lengths
  flash := n.library.flash
  freeCount := n.freeCount
  inbound := n.lane.inbound
  groups := n.lane.groups
  noticeDest := n.lane.noticeDest
  ring := n.ring.settings
  zones := n.mixer.zones.map Zone.settings
  stations := n.calls.stations
  outputs := n.mgmt.outputs
  node := n.mgmt.node
  address := n.mgmt.address
  fmstr := n.mgmt.fmstr
  cause := n.mgmt.cause
  held := n.mgmt.held
  configRead := n.mgmt.configRead
  restarting := n.mgmt.restart.isSome
  signalTaken := n.library.signalTaken
  configTaken := n.library.configTaken
  pins := n.pins

/-- The part can take a command from this sender: RUNNING, no RESTART taken, RESET_N released, command room, a source in
1-239 (R185-R187, R195; log 1). -/
def Node.ready (n : Node) (who : Req) : Bool := n.takesCommands && decide (1 ≤ who.src) && decide (who.src ≤ 239)

/-- The response to a command of the given kind: to the sender, from this node, kind plus 0x40, the sender's tag, the
status byte and the results (R187). -/
def Node.answer (n : Node) (who : Req) (kind : Nat) (status : Status) (results : List Byte) : Packet :=
  { dest := who.src, src := n.mgmt.address, kind := kind + 0x40, tag := who.tag, payload := byte status.code :: results }

/-- Record `r` has ended its call with the reason and side (R141): IDLE, its slot and layers given up. -/
def Node.callEnded (n : Node) (r : Nat) (why : Reason) (side : Side) : Bool :=
  (n.call r).state = .idle && (n.call r).clearReason = some why && (n.call r).clearSide = some side &&
    (n.call r).timer = 0 && (n.call r).talk = none && (n.call r).tone = none && (n.call r).listenBinding = none

/-- The job that `old` had on player `p` has ended with the reason (R158, R159): finished where it had no binding, and
otherwise in STOPPING until its binding ends. -/
def Node.jobEnded (n old : Node) (p : Nat) (why : JobEnd) : Bool :=
  match (old.player p).job.binding with
  | none => (n.player p).job.state = .idle && (n.player p).job.lastEnd = some why
  | some _ => (n.player p).job.state = .stopping && (n.player p).job.endReason = some why

/-- The commands and events that may write one of the kept fields. -/
def writesKept : Instr → Bool
  | .readPorts _ | .setRingParameters _ _ _ _ | .writeZone _ _ _ _ _ _ | .setVolume _ _ _ | .writeStation _ _ _ _ _ _ => true
  | .setNoticeDestination _ _ | .setGroups _ _ | .setOutput _ _ _ _ _ _ _ | .restart _ => true
  | .powerOn _ | .resetNAssert | .resetNRelease | .restartTimeout | .configImageLoad | .leaveStarting => true
  | .frameTime _ | .portFrameTime _ _ | .portSilentTimeout _ | .portLock _ _ | .portDegrade _ _ | .errorWindowEnd _ _ => true
  | .portQualified _ _ | .processFrame | .returnedFrame | .masterResume => true
  | .offer | .ringing | .answered | .reject | .clear | .flashPhaseComplete | .siglockAssert | .takeCommand => true
  | _ => false

/-- The events that may write flash: resets (which may abandon a phase), the frame time with its phases, the frame that
completes a RESTART, the end of a phase, and SIGLOCK. -/
def writesFlash : Instr → Bool
  | .powerOn _ | .resetNAssert | .resetNRelease | .restartTimeout | .frameTime _ | .processFrame | .returnedFrame => true
  | .flashPhaseComplete | .siglockAssert => true
  | _ => false

end Sys2Proof.Machine
end

