-- ==== Sys2Proof/Certificates/Slice0/Obligations.lean ====
section
/-! DEFINITION. The statements for the provers, one for each entry of OBLIGATIONS.json, in its order. -/

open Sys2Proof Sys2Proof.Machine

/-! ## The machine as a whole -/

/-- A step carries out the command at the front of the queue on the part with the queue's rest, and on an empty queue the
part idles (log 6). -/
def Obligations.StepTakesTheFront : Prop :=
  (∀ (c : Instr) (s : State), step { s with pending := c :: s.pending } = exec c s) ∧
  ∀ s : State, s.pending = [] → step s = .next s

/-- Every command and event answers a next state and leaves the queue of commands alone. For a row whose event is not due and
for a command that may not be taken that is the model's choice (log 1, log 2). -/
def Obligations.EveryCommandAnswersNext : Prop :=
  ∀ (c : Instr) (s : State), ∃ n : Node, exec c s = .next { s with node := n }

/-- The part right after reset, as the rules give it; by the model's choice the pins read 0 (log 10) and the flash is unwritten
(log 8). -/
def Obligations.ResetValues : Prop :=
  let n := State.reset.node
  State.reset.pending = [] ∧ n.mgmt.node = .starting ∧ n.ring.counter = 0 ∧ n.ring.wrap = .isolated ∧
  n.ring.west.state = .noSignal ∧ n.ring.east.state = .noSignal ∧
  n.ring.threshold = 24 ∧ n.ring.hold = 96000 ∧ n.ring.orphanLimit = 480 ∧ n.ring.lastGood = List.replicate 64 0 ∧
  (∀ k, k < 64 → (n.entry k).state = .idle ∧ (n.reg k).owner = 0) ∧
  (∀ z, z < 16 → n.stack z = [] ∧ (n.zone z).clips = 0 ∧ (n.zone z).out = 0) ∧
  (∀ id, n.binding id = none) ∧
  (∀ r, r < 8 → (n.call r).state = .idle) ∧ (∀ p, p < 2 → (n.player p).job.state = .idle) ∧
  n.lane.inbound = [] ∧ n.lane.outbound = [] ∧ n.library.ops = [] ∧
  n.pins = { address := 0, fmstr := false, contact0 := false, contact1 := false, siglock := false
             lanes := List.replicate 8 0 } ∧
  (∀ a, Memory.read n.library.flash a = 0xFF)

/-- The invariant and the bounds of the stacks and queues hold at reset. -/
def Obligations.InvAtReset : Prop := State.reset.Inv ∧ State.reset.Bounded

/-- Every step keeps the invariant: the flash store stays in canonical form, the inbound queue within 4 packets, and every table
keeps its number of records. It keeps the bounds with it: at most 6 layers in a stack, 4 flash operations, 4 waiting READ DATA, 8
packets and reservations in the outbound queue, and 24 packets in the send list. -/
def Obligations.InvKeptByEveryStep : Prop :=
  (∀ s t : State, s.Inv → step s = .next t → t.Inv ∧ (s.Bounded → t.Bounded)) ∧
  ∀ s : State, s.Bounded →
    (∀ z, (s.node.stack z).length ≤ 6) ∧ s.node.library.ops.length ≤ 4 ∧ s.node.library.readWaits.length ≤ 4 ∧
    s.node.lane.outbound.length + s.node.lane.reservations ≤ 8 ∧ s.node.calls.sendList.length ≤ 24

/-- The frame of every command and event outside `writesKept`: flash, inbound packets, ring parameters, port records, wrap
state, role, frame counter, zone settings, groups, notice destination, stations, output selections, straps and pins. -/
def Obligations.OtherCommandsLeaveSettings : Prop :=
  ∀ (c : Instr) (s t : State), writesKept c = false → exec c s = .next t → t.node.kept = s.node.kept

/-- No command and no event outside `writesFlash` changes a byte of flash. -/
def Obligations.OnlyFlashEventsWriteFlash : Prop :=
  ∀ (c : Instr) (s t : State), writesFlash c = false → exec c s = .next t →
    ∀ a : Nat, Memory.read t.node.library.flash a = Memory.read s.node.library.flash a

/-! ## Commands: reads -/

/-- IDENTIFY, READ SLOTS, READ BINDING, READ STACK, READ CALLS and READ PLAYERS with parameters in range answer OK and
change nothing else. READ SLOTS shows the attempt count of a HELD entry as its claim keeps it (log 51). -/
def Obligations.PureReadsAnswerOk : Prop :=
  ∀ (who : Req) (s : State), s.node.ready who = true →
    let n := s.node
    let answers := fun (c : Instr) (kind : Nat) (results : List Byte) =>
      exec c s = .next { s with node := n.enqueue (n.answer who kind .ok results) }
    answers (.identify who) 0x01 n.identity ∧
    (∀ first count, first ≤ 63 → 1 ≤ count → count ≤ 8 →
      answers (.readSlots who 0 first count) 0x0E ((viewIndices first count 63).flatMap n.slotReport)) ∧
    (∀ first count, first ≤ 7 → 1 ≤ count → count ≤ 8 →
      answers (.readSlots who 1 first count) 0x0E ((viewIndices first count 7).flatMap fun i => (n.talk i).report)) ∧
    (∀ id, id ≤ 63 → answers (.readBinding who id) 0x15 (bindingReport (n.binding id))) ∧
    (∀ z, z ≤ 15 → answers (.readStack who z) 0x1A ([byte (n.stack z).length] ++ (n.stack z).flatMap n.layerReport)) ∧
    (∀ first count, first ≤ 7 → 1 ≤ count → count ≤ 8 →
      answers (.readCalls who 0 first count) 0x28 ((viewIndices first count 7).flatMap n.callReport)) ∧
    (∀ first count, first ≤ 7 → 1 ≤ count → count ≤ 8 →
      answers (.readCalls who 1 first count) 0x28 ((viewIndices first count 7).flatMap fun i => (n.station i).bytes)) ∧
    answers (.readPlayers who) 0x2E
      ((n.player 0).report ++ (n.player 1).report ++ flagByte (n.player 1).voice.isSome ++ flagByte n.alarmOwned)

/-- READ CLASS: a class outside 0-7 gives BAD_VALUE; otherwise OK with the record: equal rule, duck value, volume rule, kind
mask and limit. Nothing else changes. -/
def Obligations.ReadClassAnswers : Prop :=
  ∀ (who : Req) (c : Nat) (s : State), s.node.ready who = true →
    let n := s.node
    let r := n.classRecord c
    let m := n.enqueue (if 7 < c then n.answer who 0x19 .badValue []
      else n.answer who 0x19 .ok ([byte r.equal.code] ++ levelBytes r.duck ++
        [byte r.volume.code, BitVec.setWidth 8 r.kinds, byte r.limit]))
    exec (.readClass who c) s = .next { s with node := m }

/-- READ PORTS, READ ZONE, READ ALARM and READ STATUS answer OK with what stood before they cleared the counts and flags that their
rules name. READ STATUS counts the reservation of its own response (log 60), and READ ALARM gives the zone mask of a channel whose
binding is FREE as 0 (log 37). -/
def Obligations.ClearingReadsClear : Prop :=
  ∀ (who : Req) (s : State), s.node.ready who = true →
    let n := s.node
    (exec (.readPorts who) s = .next { s with node := { n with
        ring := { n.ring with west := { n.ring.west with totalErrors := 0, lockLosses := 0 }
                              east := { n.ring.east with totalErrors := 0, lockLosses := 0 } }
        lane := { n.lane with outbound := n.lane.outbound ++ [n.answer who 0x08 .ok n.ring.report] } } }) ∧
    (∀ z, z ≤ 15 →
      let m := (n.modZone z fun r => { r with clips := 0 }).enqueue (n.answer who 0x12 .ok (n.zone z).report)
      exec (.readZone who z) s = .next { s with node := m }) ∧
    (exec (.readAlarm who) s = .next { s with node := { n with
        alarm := { n.alarm with firstUnread := none, unread := 0 }
        lane := { n.lane with outbound := n.lane.outbound ++ [n.answer who 0x21 .ok n.alarmReport] } } }) ∧
    (exec (.readStatus who) s = .next { s with node := { n with
        lane := { n.lane with noticeLost := false, refused := 0
                              outbound := n.lane.outbound ++ [n.answer who 0x02 .ok n.reserve.status] } } })

/-- READ DATA of a free bank answers OK with the bytes of flash; of a busy bank it waits, its response still reserved. -/
def Obligations.ReadDataReadsFlash : Prop :=
  ∀ (who : Req) (sector offset count : Nat) (s : State), s.node.ready who = true →
    sector ≤ 2047 → 1 ≤ count → count ≤ 48 → offset ≤ 4095 → offset + count ≤ 4096 →
    let n := s.node
    let data := (List.range count).map fun i => Memory.read n.library.flash (sector * 4096 + offset + i)
    let wait : ReadWait := { who := who, sector := sector, offset := offset, count := count }
    (n.bankBusy (bankOf sector) = false → exec (.readData who sector offset count) s = .next { s with
      node := n.enqueue (n.answer who 0x32 .ok (bytesOf 2 sector ++ bytesOf 2 offset ++ [byte count] ++ data)) }) ∧
    (n.bankBusy (bankOf sector) = true → n.library.readWaits.length < 4 →
      exec (.readData who sector offset count) s = .next { s with
        node := n.reserve.setReadWaits (n.library.readWaits ++ [wait]) })

/-! ## Commands: settings -/

/-- SET RING PARAMETERS clamps each value to its range, puts it in force and answers OK with the values in force. -/
def Obligations.SetRingParametersClamps : Prop :=
  ∀ (who : Req) (threshold hold orphan : Nat) (s : State), s.node.ready who = true →
    let n := s.node
    let r := { n.ring with threshold := max 1 (min 255 threshold), hold := max 4800 (min 480000 hold)
                           orphanLimit := max 48 (min 4800 orphan) }
    exec (.setRingParameters who threshold hold orphan) s = .next { s with node := { n with
      ring := r
      lane := { n.lane with outbound := n.lane.outbound ++
        [n.answer who 0x09 .ok ([byte r.threshold] ++ bytesOf 4 r.hold ++ bytesOf 2 r.orphanLimit)] } } }

/-- SET NOTICE DESTINATION, SET GROUPS and SET OUTPUT put their settings in force; SET OUTPUT stores as 0 the parameters that
its source does not use. -/
def Obligations.NoticeGroupsOutputsAreSet : Prop :=
  ∀ (who : Req) (s : State), s.node.ready who = true →
    let n := s.node
    (∀ a, a ≤ 255 → exec (.setNoticeDestination who a) s = .next { s with node := { n with
      lane := { n.lane with noticeDest := a, outbound := n.lane.outbound ++ [n.answer who 0x03 .ok [byte a]] } } }) ∧
    (∀ m : Mask16, m.getLsbD 15 = false → exec (.setGroups who m) s = .next { s with node := { n with
      lane := { n.lane with groups := m.setWidth 15
                            outbound := n.lane.outbound ++ [n.answer who 0x04 .ok (bytesOf 2 m.toNat)] } } }) ∧
    (∀ (k source : Nat) (invert : Bool) (zones : Mask16) (kinds : Byte) (param : Nat) (o : OutSource), k ≤ 3 →
      OutSource.ofCode source = some o → (o = .zoneClass → param ≤ 7) → (o = .contactEcho → param ≤ 1) →
      let sel : Selection :=
        { source := o, invert := invert
          zones := if o = .zoneClass then zones else 0
          kinds := if o = .zoneClass then kinds.setWidth 6 else 0
          param := if o = .zoneClass ∨ o = .contactEcho then param else 0 }
      exec (.setOutput who k source invert zones kinds param) s = .next { s with node := { n with
        mgmt := { n.mgmt with outputs := n.mgmt.outputs.set k sel }
        lane := { n.lane with outbound := n.lane.outbound ++
          [n.answer who 0x05 .ok (sel.bytes ++ flagByte (n.mgmt.driven.getD k false))] } } })

/-- WRITE ZONE with its fields in range replaces the zone's four settings, the floor clamped, leaves every other kept field,
and answers OK with the record in the last packet of its event (log 57). -/
def Obligations.WriteZoneReplacesTheRecord : Prop :=
  ∀ (who : Req) (z logical fire kind : Nat) (floor : Int) (f : FireZone) (k : ZoneKind) (s : State),
    s.node.ready who = true → z ≤ 15 → logical ≤ 4095 → FireZone.ofCode fire = some f → ZoneKind.ofCode kind = some k →
    ∃ m : Node, exec (.writeZone who z logical fire kind floor) s = .next { s with node := m } ∧
      m.kept = { s.node.kept with
        zones := s.node.kept.zones.modify z fun r =>
          { r with logical := logical, fireZone := f, kind := k, floor := max (-384) (min 0 floor) } } ∧
      m.lane.outbound.getLast? = some (s.node.answer who 0x10 .ok (m.zone z).configBytes)

/-- SET VOLUME gives every zone record with the logical zone number the clamped volume target, and answers OK with it and
their number; V moves only by its ramp. -/
def Obligations.SetVolumeRetargetsZones : Prop :=
  ∀ (who : Req) (logical : Nat) (level : Int) (s : State), s.node.ready who = true → 1 ≤ logical → logical ≤ 4095 →
    let n := s.node
    let l := max (-384) (min 0 level)
    let hits := (n.mixer.zones.filter fun r => r.logical = logical).length
    (0 < hits → exec (.setVolume who logical level) s = .next { s with node := { n with
      mixer := { n.mixer with zones := n.mixer.zones.map fun r => if r.logical = logical then { r with volTarget := l } else r }
      lane := { n.lane with outbound := n.lane.outbound ++ [n.answer who 0x11 .ok (levelBytes l ++ [byte hits])] } } }) ∧
    (hits = 0 → exec (.setVolume who logical level) s =
      .next { s with node := n.enqueue (n.answer who 0x11 .notFound []) })

/-- WRITE STATION with its fields in range, the number free and the station at rest replaces the record. -/
def Obligations.WriteStationReplacesTheRecord : Prop :=
  ∀ (who : Req) (i number mic speaker : Nat) (auto : Bool) (s : State), s.node.ready who = true →
    i ≤ 7 → number ≤ 9999 → mic ≤ 7 → speaker ≤ 15 →
    (number = 0 ∨ ∀ k, k < 8 → k ≠ i → (s.node.station k).number ≠ number) →
    (∀ c ∈ s.node.calls.records, c.state ≠ .idle → c.station ≠ i) →
    let n := s.node
    let st : Station := { number := number, mic := mic, speaker := speaker, auto := auto }
    exec (.writeStation who i number mic speaker auto) s = .next { s with node := { n with
      calls := { n.calls with stations := n.calls.stations.set i st }
      lane := { n.lane with outbound := n.lane.outbound ++ [n.answer who 0x24 .ok st.bytes] } } }

/-- WRITE CLASS of a class 0-4 puts the corrected record in force, and the response, the last packet of its event (log 57), echoes
the record in force. -/
def Obligations.WriteClassReplacesTheRecord : Prop :=
  ∀ (who : Req) (c equal : Nat) (duck : Int) (volume : Nat) (kinds : Byte) (limit : Nat) (e : EqualRule) (v : VolumeRule)
    (s : State), s.Inv → s.node.ready who = true → c ≤ 4 →
    EqualRule.ofCode equal = some e → VolumeRule.ofCode volume = some v →
    let r : ClassRecord :=
      { equal := e, duck := if duck = -385 then -385 else max (-384) (min 0 duck), volume := v, kinds := kinds.setWidth 6
        limit := max 1 (min 6 limit) }
    ∃ m : Node, exec (.writeClass who c equal duck volume kinds limit) s = .next { s with node := m } ∧
      m.mixer.classes = s.node.mixer.classes.set c r ∧
      m.lane.outbound.getLast? = some (s.node.answer who 0x18 .ok r.bytes)

/-- SET ALARM at the master, from a sender that the authority list allows, sets the master alarm source and answers with
it. -/
def Obligations.SetAlarmSetsTheSource : Prop :=
  ∀ (who : Req) (code : Nat) (mask : Mask16) (s : State), s.node.ready who = true → code ≤ 15 → s.node.ring.role = true →
    ((∀ a ∈ s.node.alarm.authority, a = 0) ∨ who.src ∈ s.node.alarm.authority) →
    let n := s.node
    let w : AlarmWord := { set := true, code := code, mask := mask, issuer := who.src }
    exec (.setAlarm who code mask) s = .next { s with node := { n with
      alarm := { n.alarm with source := w }
      lane := { n.lane with outbound := n.lane.outbound ++ [n.answer who 0x20 .ok w.bytes] } } }

/-! ## Commands: slots and talk records -/

/-- SEND of a closed input: at a slave its claim joins the pending list and the response waits; at the master the first free
slot of the pool order is held at once and answered, or NO_SLOT. -/
def Obligations.SendClaimsASlot : Prop :=
  ∀ (who : Req) (i c : Nat) (s : State), s.Inv → s.node.ready who = true → i ≤ 7 → c ≤ 7 → c ≠ 6 →
    (s.node.talk i).state = .closed → s.node.hasClaim (.talk i) = false →
    let n := s.node
    let claim : Claim := { user := .talk i, cls := c, attempts := 0, age := 0, order := n.slots.nextOrder }
    let talk : TalkRecord := { state := .claiming, cls := c, requester := who, slot := none, lastEnd := .none }
    let first := (poolOrder c).find? fun k => (n.reg k).owner = 0 && (n.entry k).owed = 0
    let answered := fun (status : Status) (results : List Byte) =>
      { n.lane with outbound := n.lane.outbound ++ [n.answer who 0x0C status results] }
    (n.ring.role = false → exec (.send who i c) s = .next { s with node := { n with
      slots := { n.slots with talks := n.slots.talks.set i talk, waiting := n.slots.waiting ++ [claim]
                              nextOrder := n.slots.nextOrder + 1 }
      lane := { n.lane with reservations := n.lane.reservations + 1 } } }) ∧
    (∀ k, n.ring.role = true → first = some k → exec (.send who i c) s = .next { s with node := { n with
      slots := { n.slots with
        talks := n.slots.talks.set i { talk with state := .sending, slot := some k }
        register := n.slots.register.set k { owner := n.mgmt.address, cls := c, orphan := 0 }
        table := n.slots.table.set k { state := .held, claim := some claim, owed := 0 }
        nextOrder := n.slots.nextOrder + 1 }
      lane := answered .ok [byte k] } }) ∧
    (n.ring.role = true → first = none → exec (.send who i c) s = .next { s with node := { n with
      slots := { n.slots with talks := n.slots.talks.set i { talk with state := .closed, lastEnd := .noSlot } }
      lane := answered .noSlot [] } })

/-- UNSEND of a sending or claiming input closes the talk record and releases its entry: IDLE, with a release owed away from
the master, where the register entry is freed instead; a held SEND response goes out with NO_SLOT first (log 57). -/
def Obligations.UnsendReleasesTheSlot : Prop :=
  ∀ (who : Req) (i : Nat) (s : State), s.Inv → s.node.ready who = true → i ≤ 7 → (s.node.talk i).state ≠ .closed →
    let n := s.node
    let t := n.talk i
    let held := if t.state = .claiming then [n.answer t.requester 0x0C .noSlot []] else []
    ∃ m : Node, exec (.unsend who i) s = .next { s with node := m } ∧ m = { n with slots := m.slots, lane := m.lane } ∧
      m.lane = { n.lane with outbound := n.lane.outbound ++ held ++ [n.answer who 0x0D .ok []]
                             reservations := n.lane.reservations - held.length } ∧
      m.talk i = { t with state := .closed, lastEnd := .unsent, slot := none } ∧ (∀ j, j ≠ i → m.talk j = n.talk j) ∧
      m.slots.waiting = n.slots.waiting.filter (fun c => c.user ≠ .talk i) ∧
      ∀ k, if (n.entry k).serves (.talk i) = true then
          m.entry k = { state := .idle, claim := none, owed := if n.ring.role then (n.entry k).owed else 480 } ∧
          (n.ring.role = true → m.reg k = .reset)
        else m.entry k = n.entry k ∧ m.reg k = n.reg k

/-! ## Commands: bindings -/

/-- BIND that reaches one zone with an empty stack, whose kind the class admits: the lowest free id becomes live, with one
ACTIVE layer at the bottom of its fade, and the response counts it. BIND that admits nothing answers NONE_ADMITTED with its
refused counts, and FULL where ids 0-61 are all live. A full stack makes room by the cut of its bottom layer, by the eviction
of a lower class, or not at all; a new layer stands below its own class and above every lower one. The response has no place
for the clamped gain (log 62). -/
def Obligations.BindPlacesALayer : Prop :=
  (∀ (who : Req) (kind index c : Nat) (gain : Int) (autoEnd : Bool) (cookie : Nat) (target : Target) (source : Source)
    (z id : Nat) (s : State), s.Inv → s.node.ready who = true → Source.ofBind kind index = some source → c ≤ 7 → c ≠ 6 →
    (autoEnd = true → kind = 0) → targetMalformed target = false → s.node.resolve target = [z] → s.node.stack z = [] →
    (s.node.classRecord c).kinds.getLsbD (s.node.zone z).kind.code = true → 1 ≤ (s.node.classRecord c).limit →
    s.node.lowestFree = some id →
    let n := s.node
    let b : Binding :=
      { source := source, cls := c, gain := max (-384) (min 32 gain), autoEnd := autoEnd, freeRun := 0
        owner := .remote who.src cookie, zones := BitVec.twoPow 16 z, ending := .none }
    let l : Layer :=
      { binding := id, cls := c, state := .active, fade := -384, duck := 0, target := 0, duckCount := 0, fresh := true
        silent := false }
    exec (.bind who kind index c gain autoEnd cookie target) s = .next { s with node := { n with
      mixer := { n.mixer with zones := n.mixer.zones.modify z (fun r => { r with stack := [l] })
                              bindings := n.mixer.bindings.set id (some b) }
      lane := { n.lane with outbound := n.lane.outbound ++ [n.answer who 0x13 .ok [byte id, 1, 0, 0, 0]] } } }) ∧
  (∀ (who : Req) (kind index c : Nat) (gain : Int) (autoEnd : Bool) (cookie : Nat) (target : Target) (source : Source)
    (s : State), s.node.ready who = true → Source.ofBind kind index = some source → c ≤ 7 → c ≠ 6 →
    (autoEnd = true → kind = 0) → targetMalformed target = false →
    let n := s.node
    let answers := fun (status : Status) (results : List Byte) =>
      exec (.bind who kind index c gain autoEnd cookie target) s =
        .next { s with node := n.enqueue (n.answer who 0x13 status results) }
    (n.lowestFree = none → answers .full [0xFF, 0, 0, 0, 0]) ∧
    (n.lowestFree.isSome = true → n.resolve target = [] → answers .noneAdmitted [0xFF, 0, 0, 0, 0]) ∧
    ∀ z, n.lowestFree.isSome = true → n.resolve target = [z] →
      let admits : Prop := (n.classRecord c).kinds.getLsbD (n.zone z).kind.code = true
      let live := ((n.stack z).filter fun l => l.state ≠ .releasing ∧ l.cls = c).length
      (¬admits → answers .noneAdmitted [0xFF, 0, 0, 1, 0]) ∧
      (admits → (n.classRecord c).limit ≤ live → answers .noneAdmitted [0xFF, 0, 0, 0, 1]) ∧
      ∀ above bottom, n.stack z = above ++ [bottom] → 5 ≤ above.length → bottom.state ≠ .releasing → c ≤ bottom.cls →
        admits → live < (n.classRecord c).limit → answers .noneAdmitted [0xFF, 0, 0, 0, 1]) ∧
  (∀ (n : Node) (z c : Nat) (above : List Layer) (bottom : Layer), n.stack z = above ++ [bottom] →
    (above.length < 5 → n.makeRoom z c false = some n) ∧
    (5 ≤ above.length →
      (bottom.state = .releasing → n.makeRoom z c false = some (n.removeLayer z bottom.binding)) ∧
      (bottom.state ≠ .releasing → bottom.cls < c → bottom.binding ≠ 62 → bottom.binding ≠ 63 →
        n.makeRoom z c false = some (n.evictLayer z bottom.binding)) ∧
      (bottom.state ≠ .releasing → bottom.cls < c → bottom.binding = 62 ∨ bottom.binding = 63 →
        (∀ l ∈ above, l.state ≠ .releasing) → n.makeRoom z c false = none) ∧
      ∀ top l below, above = top ++ l :: below → l.state = .releasing → (∀ x ∈ below, x.state ≠ .releasing) →
        bottom.state ≠ .releasing → bottom.cls < c → bottom.binding = 62 ∨ bottom.binding = 63 →
        n.makeRoom z c false = some (n.removeLayer z l.binding))) ∧
  ∀ (l : Layer) (st : List Layer), st.Pairwise (fun a b => b.cls ≤ a.cls) →
    ∃ above below, st = above ++ below ∧ insertLayer l st = above ++ l :: below ∧
      (∀ x ∈ above, l.cls ≤ x.cls) ∧ ∀ x ∈ below, x.cls < l.cls

/-- UNBIND of a remote binding, and the 48th free frame of an AUTO_END binding, set its ending field and pop each of its
layers; layers keep their places, and no other binding changes. -/
def Obligations.EndingPopsTheLayers : Prop :=
  ∀ (id : Nat) (b : Binding) (s : State), s.Inv → s.node.binding id = some b → b.ending = .none →
    let n := s.node
    let popped := fun (m : Node) (b' : Binding) =>
      m.binding id = some b' ∧ (∀ j, j ≠ id → m.binding j = n.binding j) ∧
      ∀ z, (m.stack z).map (·.binding) = (n.stack z).map (·.binding) ∧
        ∀ l ∈ m.stack z, l.binding = id → l.state = .releasing
    (∀ who, n.ready who = true → id ≤ 63 → b.isRemote = true → ∃ m : Node, exec (.unbind who id) s = .next { s with node := m } ∧
      m = { n with mixer := m.mixer, lane := m.lane } ∧ popped m { b with ending := .unbound } ∧
      m.lane = { n.lane with outbound := n.lane.outbound ++
        [n.answer who 0x14 .ok ([byte id] ++ bytesOf 2 b.zones.toNat)] }) ∧
    (n.autoEndDue id = true → ∃ m : Node, exec (.autoEnd id) s = .next { s with node := m } ∧
      m = { n with mixer := m.mixer } ∧ popped m { b with freeRun := b.freeRun + 1, ending := .autoEnd })

/-! ## Commands: calls -/

/-- CALL from a station in use and at rest, at a slave with a record available: the record is taken CLAIMING with the next
serial, its claim joins the pending list, and the response carries the call id. The record notes its change of state (log 21). -/
def Obligations.CallTakesARecord : Prop :=
  ∀ (who : Req) (i number : Nat) (priority : Bool) (r : Nat) (s : State), s.Inv → s.node.ready who = true → i ≤ 7 →
    1 ≤ number → number ≤ 9999 → (s.node.station i).number ≠ 0 → (s.node.station i).number ≠ number →
    (∀ c ∈ s.node.calls.records, c.state ≠ .idle → c.station ≠ i) → s.node.availableRecord = some r →
    s.node.hasClaim (.call r) = false → s.node.ring.role = false →
    let n := s.node
    let cls := if priority then 7 else 4
    let c : CallRecord := { CallRecord.reset with
      state := .claiming, changed := true, role := .caller, serial := ((n.call r).serial + 1) % 32, station := i, number := number, cls := cls
      clearReason := (n.call r).clearReason, clearSide := (n.call r).clearSide }
    let claim : Claim := { user := .call r, cls := cls, attempts := 0, age := 0, order := n.slots.nextOrder }
    exec (.call who i number priority) s = .next { s with node := { n with
      calls := { n.calls with records := n.calls.records.set r c }
      slots := { n.slots with waiting := n.slots.waiting ++ [claim], nextOrder := n.slots.nextOrder + 1 }
      lane := { n.lane with outbound := n.lane.outbound ++ [n.answer who 0x25 .ok [byte (r + 8 * c.serial), 1]] } } }

/-- ANSWER of a ringing callee is noted while a packet of its own is outstanding. Otherwise the answer, like an ANSWERED taken
by an alerting caller, pops the tone and pushes the listen layer: the call is CONNECTED with the binding that the push gives, a
callee then sending ANSWERED, and it ends with CAPACITY on the local side where the push gives none. The response to ANSWER is
the last packet of its event (log 57). A call that has ended has no talk slot and no bindings (log 20). -/
def Obligations.AnswersConnectOrEnd : Prop :=
  ∀ (r : Nat) (s : State), s.Inv → r ≤ 7 →
    let n := s.node
    let c := n.call r
    let given := fun (m : Node) (quiet : CallRecord → CallRecord) =>
      (((m.modCall r quiet).popLayers c.tone (.call r)).callPush r (.ring (c.listen.getD 0))).2
    let settled := fun (m : Node) (binding : Option Nat) =>
      match binding with
      | some id => (m.call r).state = .connected ∧ (m.call r).listenBinding = some id ∧ (m.call r).timer = 0
      | none => m.callEnded r .capacity .here = true
    (∀ who id, n.ready who = true → n.recordOf id = some r → c.role = .callee → c.state = .ringing →
      c.answerPending = false →
      (c.outstanding ≠ .none → exec (.answer who id) s = .next { s with node := { n with
        calls := { n.calls with records := n.calls.records.modify r fun c => { c with answerPending := true } }
        lane := { n.lane with outbound := n.lane.outbound ++ [n.answer who 0x26 .ok []] } } }) ∧
      (c.outstanding = .none → ∃ m : Node, exec (.answer who id) s = .next { s with node := m } ∧
        let push := given n.reserve fun c => { c with answerPending := false, tone := none }
        settled m push ∧ m.lane.outbound.getLast? = some (n.answer who 0x26 .ok []) ∧
        (push.isSome = true → (m.call r).outstanding = .answered ∧ m.calls.sendList.getLast? = some
          { packet := { dest := c.remote.getD 0, src := n.mgmt.address, kind := 0x92, tag := 0
                        payload := [byte (c.remoteId.getD 0), byte (r + 8 * c.serial)] }
            tie := some { record := r, callId := r + 8 * (m.call r).serial, closing := false } }))) ∧
    (∀ p rest, n.lane.inbound = p :: rest → p.kind = 0x92 → n.running = true → n.mgmt.held = false →
      p.payload.length = 2 → n.recordOf (byteAt p.payload 0) = some r → c.role = .caller →
      c.state = .alerting → c.matchesPacket p (byteAt p.payload 1) = true →
      ∃ m : Node, exec .answered s = .next { s with node := m } ∧ m.lane.inbound = rest ∧
        settled m (given { n with lane := { n.lane with inbound := rest } } fun c => { c with tone := none }))

/-! ## Commands: players -/

/-- PLAY that passes its checks, on the ring alone, at a slave: the job record is filled and CLAIMING, its stream is open and
its claim pending, and the response says so. It echoes neither gain nor gap (log 62). -/
def Obligations.PlayStartsAJob : Prop :=
  ∀ (who : Req) (a : PlayArgs) (p : Nat) (e : Entry) (s : State), s.Inv → s.node.ready who = true →
    s.node.bankBusy 0 = false → s.node.players.waits = [] → s.node.checkPlay a = .ok (p, e) → a.target = none →
    a.ringOut = true → s.node.ring.role = false → s.node.hasClaim (.player p) = false →
    let n := s.node
    let claim : Claim := { user := .player p, cls := a.cls, attempts := 0, age := 0, order := n.slots.nextOrder }
    let j : Job := { Job.reset with
      state := .claiming, message := a.message, start := e.start, length := e.length, cls := a.cls
      gain := max (-384) (min 32 (max (-384) (min 32 a.gain) + e.trim)), trim := e.trim, ringOut := true
      passes := a.passes, gap := min 10000 a.gapMs * 48, wait := a.wait, requester := who.src, cookie := a.cookie
      claim := .requested, lastEnd := (n.player p).job.lastEnd }
    ∃ m : Node, exec (.play who a) s = .next { s with node := m } ∧
      m = { n with slots := m.slots, players := m.players, lane := m.lane } ∧
      (m.player p).job = j ∧ (m.player p).streamOpen = true ∧ (m.player p).queue.length ≤ 64 ∧
      (∀ q, q ≠ p → m.player q = n.player q) ∧
      m.slots = { n.slots with waiting := n.slots.waiting ++ [claim], nextOrder := n.slots.nextOrder + 1 } ∧
      m.lane = { n.lane with outbound := n.lane.outbound ++
        [n.answer who 0x2C .ok [byte p, 2, 0xFF, 0xFF, 0, 0, 0, 0]] }

/-- PLAY that fails a check answers that check's status and changes nothing else; that its response carries no results is log 41. -/
def Obligations.PlayRefusedAnswersTheCheck : Prop :=
  ∀ (who : Req) (a : PlayArgs) (st : Status) (s : State), s.node.ready who = true → s.node.bankBusy 0 = false →
    s.node.players.waits = [] → s.node.checkPlay a = .error st →
    exec (.play who a) s = .next { s with node := s.node.enqueue (s.node.answer who 0x2C st []) }

/-- STOP of a job that has not begun to end: it finishes at once when it has no binding and goes to STOPPING otherwise; the
response carries its state, and is the last packet of the outbound queue, after the PLAYER DONE of a job that finishes at once
(log 45). A job stopped while PLAYING whose pass has no samples left, its last frame given or the next one due, has its stream
closed at once; one with a binding and samples left keeps its stream and its queue (log 22). -/
def Obligations.StopEndsTheJob : Prop :=
  ∀ (who : Req) (p : Nat) (s : State), s.Inv → s.node.ready who = true → p ≤ 1 → s.node.players.waits = [] →
    (s.node.player p).job.running = true →
    let n := s.node
    let q := n.player p
    let lastPair : Prop := q.job.half = .second ∧ q.underrunPair = false ∧ q.job.position + 1 = q.job.length
    ∃ m : Node, exec (.stop who p) s = .next { s with node := m } ∧
      m = { n with slots := m.slots, mixer := m.mixer, players := m.players, lane := m.lane } ∧
      m.jobEnded n p .stopped = true ∧ (∀ q, q ≠ p → m.player q = n.player q) ∧
      (q.job.state = .playing → q.passDone = true ∨ (lastPair ∧ Share.player p ∉ n.early) →
        (m.player p).streamOpen = false ∧ (m.player p).queue = []) ∧
      (q.job.state = .playing → q.passDone = false → ¬lastPair ∨ Share.player p ∈ n.early → q.job.binding ≠ none →
        (m.player p).streamOpen = q.streamOpen ∧ (m.player p).queue = q.queue) ∧
      m.lane.outbound.getLast? = some (n.answer who 0x2D .ok [byte p, byte (m.player p).job.state.code])

/-! ## Commands: flash, RESTART, and the inbound queue -/

/-- ERASE, WRITE DATA and SAVE CONFIG on an empty operation queue, with the bank not deferred, start at once; the response
stays reserved. A save captures the working image. -/
def Obligations.FlashCommandsStart : Prop :=
  ∀ (who : Req) (s : State), s.node.ready who = true → s.node.library.ops = [] →
    let n := s.node
    let started := fun (kind : FlashKind) (sector offset : Nat) (data : List Byte) (phase : FlashPhase) =>
      let op : FlashOp :=
        { kind := kind, sector := sector, offset := offset, data := data, phase := phase, timer := 0, who := who }
      Host.Outcome.next (φ := Fault) (ρ := Refusal) { s with node := { n with
        library := { n.library with ops := [op] }, lane := { n.lane with reservations := n.lane.reservations + 1 } } }
    (∀ sector, sector ≤ 2047 → (sector < 256 → n.pins.siglock = false) → n.sectorPlayed sector = false →
      n.deferred (bankOf sector) = false → exec (.erase who sector) s = started .erase sector 0 [] .erasing ∧
      ∀ offset data, 1 ≤ data.length → data.length ≤ 48 → offset + data.length ≤ 4096 →
        exec (.writeData who sector offset data) s = started .write sector offset data .writing) ∧
    (n.deferred 0 = false → exec (.saveConfig who) s = started .save 257 0 n.workingImage .erasing)

/-- RELOAD SIGNALS with no active alarm channel and an empty operation queue: an image that is not taken gives MISMATCH and
changes nothing; a taken one replaces signals, code map, authority list, classes 5-7 and both contacts, and the OK response comes
after every notice of the delivery (log 46). -/
def Obligations.ReloadReplacesTheTables : Prop :=
  ∀ (who : Req) (s : State), s.Inv → s.node.ready who = true → s.node.alarmActive = false → s.node.library.ops = [] →
    let n := s.node
    let sec := SignalSector.ofBytes n.signalImage
    (imageTaken n.signalImage 0x51 = false →
      exec (.reloadSignals who) s = .next { s with node := n.enqueue (n.answer who 0x34 .mismatch []) }) ∧
    (imageTaken n.signalImage 0x51 = true → ∃ m : Node, exec (.reloadSignals who) s = .next { s with node := m } ∧
      m.alarm.signals = sec.signals ∧ m.alarm.codeMap = sec.codeMap ∧ m.alarm.authority = sec.authority ∧
      m.mixer.classes = n.mixer.classes.mapIdx (fun c r => if c < 5 then r else sec.classes.getD (c - 5) r) ∧
      (∀ k, k < 2 → m.contact k = { sec.contacts.getD k .reset with stamp := (n.contact k).stamp }) ∧
      m.library.ops = [] ∧ m.lane.outbound.getLast? = some (n.answer who 0x34 .ok []))

/-- RESTART is answered OK, its response the last packet of the outbound queue; the wait for the reset begins at 0, no further
command is taken, and nothing but the lane and the wait changes; that the job records keep their end reasons is log 71. -/
def Obligations.RestartIsAnswered : Prop :=
  ∀ (who : Req) (s : State), s.node.ready who = true →
    let n := s.node
    ∃ m : Node, exec (.restart who) s = .next { s with node := m } ∧ m = { n with lane := m.lane, mgmt := m.mgmt } ∧
      m.mgmt = { n.mgmt with restart := some 0 } ∧ m.takesCommands = false ∧
      m.lane.outbound.getLast? = some (n.answer who 0x06 .ok [])

/-- TAKE COMMAND takes the head of the inbound queue: a command is carried out as its own row on the part with the head gone; a
response or a notice is discarded. A packet comes into the queue at the end of a whole window that is addressed to the node and
not yet copied, while the queue has room; a window that is not whole, or finds no room, counts as refused where it is addressed
to this node alone. How a payload spells its command is logs 12, 24 and 63. -/
def Obligations.TakeCommandRunsTheHead : Prop :=
  (∀ (p : Packet) (rest : List Packet) (s : State), s.node.lane.inbound = p :: rest → s.node.takesCommands = true →
    let m : Node := { s.node with lane := { s.node.lane with inbound := rest } }
    (∀ i, commandOf p.kind p.payload { src := p.src, tag := p.tag } = .command i →
      exec .takeCommand s = exec i { s with node := m }) ∧
    (0x40 ≤ p.kind → p.kind < 0x90 ∨ 0x94 < p.kind → exec .takeCommand s = .next { s with node := m })) ∧
  ∀ (n : Node) (f : Follow) (lane : List Byte), n.lane.follow = some f → f.job = .receive → f.next = 7 →
    let window := f.bytes ++ lane
    let dest := byteAt window 1
    let alone : Prop := dest = n.mgmt.address
    let addressed : Prop := alone ∨ dest = 255 ∨ (240 ≤ dest ∧ dest ≤ 254 ∧ n.lane.groups.getLsbD (dest - 240) = true)
    let ends := fun (l : Lane) (bytes : List Byte) =>
      n.laneFrame (8 * f.window + 7) lane = ⟨{ n with lane := { l with follow := none } }, bytes, false⟩
    let refused := ends { n.lane with refused := min 65535 (n.lane.refused + 1) } (lane.take 7 ++ [0xC2])
    (¬addressed → ends n.lane lane) ∧ (addressed → ¬alone → f.whole = false → ends n.lane lane) ∧
    (alone → f.whole = false → refused) ∧ (Packet.ofWindow window = none → f.whole = true → ends n.lane lane) ∧
    ∀ p, addressed → f.whole = true → Packet.ofWindow window = some p →
      (lane.getD 7 0 = 0xC1 → ends n.lane lane) ∧
      (lane.getD 7 0 ≠ 0xC1 → n.lane.inbound.length < 4 → ∀ bytes,
        (alone → bytes = lane.take 7 ++ [0xC1]) → (¬alone → bytes = lane) →
        ends { n.lane with inbound := n.lane.inbound ++ [p] } bytes) ∧
      (lane.getD 7 0 ≠ 0xC1 → 4 ≤ n.lane.inbound.length → (alone → refused) ∧ (¬alone → ends n.lane lane))

/-! ## Events: resets and start-up -/

/-- Power-on, RESET_N asserted and released, and the 4,800th frame time of a RESTART bring the part to frame time 0 of its
start-up: straps read, the tables of the signal sector loaded or at their defaults, flash as it was unless a phase was running,
and every other queue, record, table, store and count at its reset value. After a RESTART the frames on the links stay (log 31).
RESET_N asserted in the start-up of a power-on leaves the cause POWER (log 25). The defaults of the signal table are with log 68. -/
def Obligations.ResetsStartTheNode : Prop :=
  ∀ (pins : Pins) (s : State),
    let n := s.node
    let resets := fun (i : Instr) (cause : ResetCause) (held : Bool) (pins : Pins) (east west : Option Frame) =>
      ∃ m : Node, exec i s = .next { s with node := m } ∧
        let sector := if imageTaken m.signalImage 0x51 then SignalSector.ofBytes m.signalImage else SignalSector.builtIn
        m = { Node.reset with
          ring := { Ring.reset with
            role := pins.fmstr && decide (1 ≤ pins.address ∧ pins.address ≤ 239)
            txEast := { Tx.reset with out := east }, txWest := { Tx.reset with out := west } }
          mixer := { Mixer.reset with classes := Mixer.reset.classes.take 5 ++ sector.classes }
          alarm := { Alarm.reset with
            signals := sector.signals, codeMap := sector.codeMap, contacts := sector.contacts
            authority := sector.authority }
          library := { Library.reset with flash := m.library.flash, signalTaken := imageTaken m.signalImage 0x51 }
          mgmt := { Mgmt.reset with cause := cause, held := held, address := pins.address, fmstr := pins.fmstr }
          pins := pins
          freeCount := m.freeCount } ∧
        ((∀ op ∈ n.library.ops.head?, op.phase = .waiting) → m.library.flash = n.library.flash)
    resets (.powerOn pins) .power false pins none none ∧
    resets .resetNAssert (if n.mgmt.node = .starting ∧ n.mgmt.cause = .power then .power else .pin) true n.pins none none ∧
    (n.mgmt.held = true → resets .resetNRelease n.mgmt.cause false n.pins none none) ∧
    (∀ k, n.mgmt.restart = some k → 4799 ≤ k →
      resets .restartTimeout .command false n.pins n.ring.txEast.out n.ring.txWest.out) ∧
    (∀ z, z < 16 → Node.reset.stack z = [] ∧ (Node.reset.zone z).clips = 0 ∧ (Node.reset.zone z).out = 0) ∧
    Node.reset.mixer.bindings = List.replicate 64 none ∧ Node.reset.ring.relay = { run := none, complete := none } ∧
    Node.reset.ring.lastGood = List.replicate 64 0 ∧ Node.reset.library.readWaits = [] ∧ Node.reset.library.ops = [] ∧
    Node.reset.players.waits = [] ∧ Node.reset.calls.sendList = [] ∧ Node.reset.lane.outbound = [] ∧
    Node.reset.lane.inbound = [] ∧ Alarm.reset.confirmed = { set := false, code := 0, mask := 0, issuer := 0 } ∧
    Alarm.reset.candidate = Alarm.reset.confirmed ∧ Alarm.reset.source = Alarm.reset.confirmed ∧
    Alarm.reset.firstUnread = none ∧ Alarm.reset.latest = none ∧ Alarm.reset.unread = 0 ∧
    Alarm.reset.table = List.replicate 16 { code := 0, source := .none } ∧
    (∀ a, (Node.reset.channel a).phase = .idle ∧ (Node.reset.channel a).gen.state = .idle) ∧
    Alarm.reset.callGen.state = .idle

/-- The second frame time of STARTING loads the config image, or the defaults when it is not taken: zone records, classes 0-4,
stations, output selections, group membership, notice destination and ring parameters, and leaves everything else. The third
leaves STARTING, to RUNNING with a node address on the strap and to NO_ADDRESS without. A loaded flag byte is set when it is 1
(log 24), and a loaded selection keeps what its source does not use (log 64). -/
def Obligations.StartUpLoadsAndLeaves : Prop :=
  ∀ s : State, s.Inv → s.node.mgmt.node = .starting → s.node.mgmt.held = false →
    let n := s.node
    let image := n.configInFlash
    let zone := fun (z : Nat) => slice image (2 + 8 * z) 8
    let logical := fun (z : Nat) => natOf (slice (zone z) 0 2)
    let target := fun (z : Nat) => max (-384) (min 0 (intOf (slice (zone z) 4 2)))
    let station := fun (i : Nat) => slice image (160 + 5 * i) 5
    let number := fun (i : Nat) => if natOf (slice (station i) 0 2) ≤ 9999 then natOf (slice (station i) 0 2) else 0
    (n.mgmt.configRead = false → ∃ m : Node, exec .configImageLoad s = .next { s with node := m } ∧
      m = { n with
        mixer := { n.mixer with zones := m.mixer.zones, classes := m.mixer.classes }
        calls := { n.calls with stations := m.calls.stations }
        mgmt := { n.mgmt with outputs := m.mgmt.outputs, configRead := true }
        lane := { n.lane with groups := m.lane.groups, noticeDest := m.lane.noticeDest }
        ring := { n.ring with threshold := m.ring.threshold, hold := m.ring.hold, orphanLimit := m.ring.orphanLimit }
        library := { n.library with configTaken := imageTaken image 0x57 } } ∧
      (∀ c, 5 ≤ c → m.classRecord c = n.classRecord c) ∧
      (imageTaken image 0x57 = true →
        (∀ z, z ≤ 15 → m.zone z = { n.zone z with
          logical := if logical z ≤ 4095 then logical z else 0
          fireZone := (FireZone.ofCode (byteAt (zone z) 2)).getD .all
          kind := (ZoneKind.ofCode (byteAt (zone z) 3)).getD .publicRoom
          volTarget := target z, vol := target z, volCount := 0
          floor := max (-384) (min 0 (intOf (slice (zone z) 6 2))) }) ∧
        (∀ c, c ≤ 4 → m.classRecord c = ClassRecord.ofBytes c (slice image (130 + 6 * c) 6)) ∧
        (∀ i, i ≤ 7 → m.station i =
          { number := if ∃ k, k < i ∧ number k = number i then 0 else number i
            mic := if byteAt (station i) 2 ≤ 7 then byteAt (station i) 2 else i
            speaker := if byteAt (station i) 3 ≤ 15 then byteAt (station i) 3 else i
            auto := decide (byteAt (station i) 4 = 1) }) ∧
        m.lane.groups = BitVec.ofNat 15 (natOf (slice image 224 2)) ∧
        m.lane.noticeDest = byteAt image 226 ∧ m.ring.threshold = max 1 (min 255 (byteAt image 227)) ∧
        m.ring.hold = max 4800 (min 480000 (natOf (slice image 228 4))) ∧
        m.ring.orphanLimit = max 48 (min 4800 (natOf (slice image 232 2))) ∧
        m.mgmt.outputs = (List.range 4).map fun k => Selection.ofBytes (slice image (200 + 6 * k) 6)) ∧
      (imageTaken image 0x57 = false →
        (∀ z, z ≤ 15 → m.zone z = { n.zone z with
          logical := 0, fireZone := .all, kind := .publicRoom, volTarget := 0, vol := 0, volCount := 0, floor := -24 }) ∧
        (∀ c, c ≤ 4 → m.classRecord c = defaultClasses.getD c (m.classRecord c)) ∧
        (∀ i, i ≤ 7 → m.station i = { number := 0, mic := i, speaker := i, auto := false }) ∧
        m.lane.noticeDest = 0 ∧ m.lane.groups = 0 ∧ m.ring.threshold = 24 ∧ m.ring.hold = 96000 ∧
        m.ring.orphanLimit = 480 ∧ m.mgmt.outputs = defaultOutputs)) ∧
    (n.mgmt.configRead = true → 1 ≤ n.ring.counter → ∃ m : Node, exec .leaveStarting s = .next { s with node := m } ∧
      m.mgmt.node = if 1 ≤ n.mgmt.address ∧ n.mgmt.address ≤ 239 then .running else .noAddress)

/-! ## Events: frame times, ports and frames -/

/-- Each frame time reads the pins and advances the frame counter by one, modulo 2^32, and leaves no count taken early (log 3);
while RESET_N is held it reads the pins and moves what is on the links, and nothing else (log 25). A running node's frame time takes its
parts in the order of log 4. At its end each status output shows its selection's condition, inverted where the selection says so,
and reads layers in the stacks that the frame time's zone computations found: what comes after them belongs to the next frame time.
A transmitter that keeps its source sends the oldest frame of its alignment store, or a fill frame where none is due; a processed
frame goes east, and west with the turn mark in WRAP_EAST. A generated frame goes east and, by the wrap state, west, its marked
frames in WRAP_EAST being a source of their own (log 47), and holds what R16 gives an isolated node and R17 a master, the headers
of its register with its own slots written; the first generated number is 0 (log 15). -/
def Obligations.FrameTimeCounts : Prop :=
  (∀ (pins : Pins) (s : State),
    let n := s.node
    (n.mgmt.held = true → ∃ m : Node, exec (.frameTime pins) s = .next { s with node := m } ∧ m.pins = pins ∧
      m = { n with pins := pins, ring := m.ring } ∧ m.ring.counter = n.ring.counter ∧ m.ring.west = n.ring.west ∧
      m.ring.east = n.ring.east ∧ m.ring.wrap = n.ring.wrap ∧ m.ring.lastGood = n.ring.lastGood ∧ m.ring.txEast.out = none) ∧
    (n.mgmt.held = false → n.mgmt.restart = none → ∃ m : Node, exec (.frameTime pins) s = .next { s with node := m } ∧
      m.ring.counter = (n.ring.counter + 1) % 4294967296 ∧ m.pins = pins ∧ m.early = []) ∧
    (n.mgmt.held = false → n.mgmt.node ≠ .starting →
      let begun : Node := { n with pins := pins, ring := { n.ring with counter := (n.ring.counter + 1) % 4294967296 } }
      let sent := begun.counts.resumeStep.sounds.flashStep.periodStep.ringTick
      sent.mgmt.node ≠ .starting → exec (.frameTime pins) s = .next { s with
        node :=
          let ended := [0, 1].foldl Node.playerEnd sent
          (ended.computeZones.contactStep.timerEvents.restartStep).endFrame (ended.foundStacks (List.range 16)) })) ∧
  (∀ (n : Node) (z : Nat), z ≤ 15 →
    (n.foundStacks (List.range 16)).getD z [] = ((List.range z).foldl Node.computeZone n).stack z) ∧
  (∀ (n : Node) (found : ZoneStacks), (n.endFrame found).early = [] ∧ (n.endFrame found).mgmt.outputs = n.mgmt.outputs ∧
    (n.endFrame found).mgmt.driven = n.mgmt.outputs.map fun o => decide (n.mgmt.node ≠ .starting) && (o.invert != match o.source with
      | .fixed => false
      | .ringOk => decide (n.ring.west.state = .locked ∧ n.ring.east.state = .locked)
      | .ringAny => decide (n.ring.west.state = .locked ∨ n.ring.east.state = .locked)
      | .alarmAny => decide (∃ z ∈ List.range 16, ∃ l ∈ found.getD z [], l.state ≠ .releasing ∧ (l.binding = 62 ∨ l.binding = 63))
      | .zoneClass => decide (∃ z ∈ List.range 16, o.zones.getLsbD z = true ∧ o.kinds.getLsbD (n.zone z).kind.code = true ∧
          ∃ l ∈ found.getD z [], l.state ≠ .releasing ∧ o.param ≤ l.cls)
      | .callRinging => decide (∃ c ∈ n.calls.records, c.role = .callee ∧ c.state = .ringing)
      | .contactEcho => (n.contact o.param).asserted)) ∧
  (∀ (t : Tx) (next : Nat) (feed due : Option Frame) (rest : List (Option Frame)), t.store ++ [feed] = due :: rest →
    let u := t.send t.source next feed
    u.source = t.source ∧ u.delay = t.delay ∧ u.store = rest ∧
    (∀ f, due = some f → u.out = some f ∧ u.lastMaster = f.master ∧ (f.good = true → u.lastSeq = some f.seq.toNat)) ∧
    (due = none → t.lastSeq = none → u.out = none ∧ u.lastSeq = none) ∧
    ∀ last, due = none → t.lastSeq = some last → ∃ f, u.out = some f ∧ f.seq = BitVec.ofNat 8 ((last + 1) % 256) ∧
      f.master = t.lastMaster ∧ f.damaged = true ∧ f.good = true ∧ f.slots = List.replicate 64 .empty ∧
      f.lane = List.replicate 8 0 ∧ u.lastSeq = some ((last + 1) % 256)) ∧
  (∀ (n : Node) (p : Port) (f : Option Frame),
    let next := ((n.port p).expected.getD 0 + 255) % 256
    (n.sendProcessed p f).ring = { n.ring with
      txEast := n.ring.txEast.send (.processed p) next f
      txWest := if n.ring.wrap = .wrapEast then n.ring.txWest.send (.processed p) next (f.map Frame.markTurned)
        else n.ring.txWest }) ∧
  (∀ (n : Node) (source : TxSource) (f : Frame),
    let both := n.ring.txWest.send source f.seq.toNat (some f)
    (n.sendGenerated source f).ring = { n.ring with
      txEast := n.ring.txEast.send source f.seq.toNat (some f)
      txWest := match n.ring.wrap with
        | .through =>
          if n.ring.turnRepeat = true ∧ n.ring.role = true ∧ n.mgmt.node = .running then
            n.ring.txWest.send .turnRepeat ((n.ring.east.expected.getD 0 + 255) % 256) (match n.ring.eastIn with
              | .frame g => some g
              | .none => none
              | .taken _ => none)
          else both
        | .wrapWest => { n.ring.txWest with source := .silent, lastSeq := none, delay := 0, store := [], out := none }
        | .wrapEast => n.ring.txWest.send .generatedTurned f.seq.toNat (some f.markTurned)
        | .isolated => both }) ∧
  (∀ (n : Node) (seq : Nat) (h : Headers) (lane : List Byte),
    let f := n.masterBuilt seq h lane
    let g := isolatedFrame seq
    f.good = true ∧ f.seq = byte seq ∧ f.master = byte n.mgmt.address ∧ f.damaged = false ∧ f.turned = false ∧
    f.fireZones = n.alarm.source.mask ∧ f.issuer = byte n.alarm.source.issuer ∧ f.word.set = n.alarm.source.set ∧
    f.word.code = n.alarm.source.code % 16 ∧ f.slots = h ∧ f.lane = lane ∧
    g.good = true ∧ g.seq = byte seq ∧ g.master = 0 ∧ g.damaged = false ∧ g.turned = false ∧
    g.word = { set := false, code := 0, mask := 0, issuer := 0 } ∧ g.slots = List.replicate 64 .empty ∧
    g.lane = List.replicate 8 0) ∧
  ∀ n : Node,
    let seq := match n.ring.txEast.lastSeq with
      | some last => (last + 1) % 256
      | none => 0
    let headers := (List.range 64).map fun k => SlotField.make (n.reg k).owner (n.reg k).cls true false (n.ring.lastGood.getD k 0)
    let slots := n.ownSlots headers
    let lane := (n.readGenerated slots).generateLane seq
    (lane.restarts = false → n.generate = lane.node.sendGenerated .generated (lane.node.masterBuilt seq slots lane.bytes)) ∧
    (n.ring.wrap = .isolated → n.slaveLinks = n.sendGenerated .isolated (isolatedFrame seq))

/-- A receivers' frame time moves each receiver's record, applies R12 to both ports and sets the wrap state from the ports in
use. -/
def Obligations.PortFrameTimeMovesThePorts : Prop :=
  ∀ (west east : Option Rx) (s : State),
    let n := s.node
    let moved := fun (p : PortRecord) (rx : Option Rx) =>
      match rx with
      | some bytes => p.tick n.ring.threshold (Frame.ofBytes bytes)
      | none => p
    let used := fun (p : PortRecord) =>
      if p.inUse then decide (p.state = .locked)
      else decide (p.state = .locked ∧ (n.ring.hold ≤ p.lockedRun ∨ p.usedSinceReset = false))
    let after := fun (p : PortRecord) => { p with inUse := used p, usedSinceReset := p.usedSinceReset || (!p.inUse && used p) }
    ∃ m : Node, exec (.portFrameTime west east) s = .next { s with node := m } ∧
      m.ring.west = after (moved n.ring.west west) ∧ m.ring.east = after (moved n.ring.east east) ∧
      m.ring.wrap = match m.ring.west.inUse, m.ring.east.inUse with
        | true, true => .through
        | false, true => .wrapWest
        | true, false => .wrapEast
        | false, false => .isolated

/-- The five events of a receive port: the 8th silent frame time, the 16th good frame in order, the check error that reaches
the threshold, the end of an error window, and coming into use. -/
def Obligations.PortEventsChangeThePort : Prop :=
  ∀ (p : Port) (rx : Rx) (f : Frame) (s : State), Frame.ofBytes rx = some f →
    let n := s.node
    let r := n.port p
    let inOrder : Prop := f.good = true ∧ r.expected = some f.seq.toNat
    let brings := fun (i : Instr) (after : PortRecord → Prop) =>
      ∃ m : Node, exec i s = .next { s with node := m } ∧ after (m.port p)
    (7 ≤ r.silent → r.state ≠ .noSignal → brings (.portSilentTimeout p) fun q =>
      q.state = .noSignal ∧ q.expected = none ∧ q.inUse = false ∧
      q.lockLosses = if r.state = .acquiring then r.lockLosses else min 255 (r.lockLosses + 1)) ∧
    (r.state = .acquiring → inOrder → r.run = 15 → brings (.portLock p rx) fun q =>
      q.state = .locked ∧ q.run = 16 ∧ q.lockedRun = 0 ∧ q.windowPos = 0 ∧ q.windowErrors = 0) ∧
    (r.state = .locked → f.good = false → n.ring.threshold ≤ r.windowErrors + 1 → brings (.portDegrade p rx) fun q =>
      q.state = .degraded ∧ q.totalErrors = min 65535 (r.totalErrors + 1) ∧ q.inUse = false) ∧
    (r.state = .locked ∨ r.state = .degraded → inOrder → r.windowPos = 4799 → brings (.errorWindowEnd p rx) fun q =>
      q.windowPos = 0 ∧ q.windowErrors = 0 ∧
      q.state = if r.windowErrors < n.ring.threshold then .locked else .degraded) ∧
    (r.state = .locked → inOrder → r.windowPos < 4799 → r.inUse = false →
      r.usedSinceReset = false ∨ (n.ring.hold ≤ r.lockedRun + 1 ∧ r.lockedRun < 480000) →
      brings (.portQualified p rx) fun q => q.inUse = true ∧ q.usedSinceReset = true)

/-- A frame waiting at the primary input is taken whole: at a relaying node, and at a master that finds its own address in it, an
undamaged frame's samples become the last-good store, and any other frame leaves the store and makes a held frame time. An undamaged frame at a running
relaying node goes through its alarm word, its slots, the AUTO_END runs, the path counts (log 39) and its control lane, and out
with what they wrote; a damaged one goes out with its damaged mark. A returned frame goes through the master slot register, its
alarm word, its control lane and the relay store (log 60). While RESET_N is held a relaying node only
sends the frame on (log 25). -/
def Obligations.FramesFeedTheLastGoodStore : Prop :=
  (∀ (p : Port) (f : Frame) (s : State), s.node.mgmt.held = false → s.node.waitingFrame = some (p, f) →
    s.node.mgmt.node ≠ .starting → s.node.mgmt.restart = none →
    let n := s.node
    let takes := fun (i : Instr) => ∃ m : Node, exec i s = .next { s with node := m } ∧
      m.ring.arrival p = .taken (!(f.good && !f.damaged)) ∧
      m.ring.lastGood = if f.good && !f.damaged then f.slots.map (·.sample) else n.ring.lastGood
    (n.ring.role = false → takes .processFrame) ∧
    (n.ring.role = true → n.mgmt.node = .running → f.master.toNat = n.mgmt.address →
      takes .processFrame ∧ takes .returnedFrame)) ∧
  ∀ (p : Port) (f : Frame) (s : State), s.node.waitingFrame = some (p, f) →
    let n := s.node
    let taken : Node := { n with ring := n.ring.setArrival p (.taken (!(f.good && !f.damaged))) }
    let runs := fun (i : Instr) (m : Node) => exec i s = .next { s with node := m }
    (n.mgmt.held = true → n.ring.role = false → ∃ m : Node, runs .processFrame m ∧ m = { taken with ring := m.ring } ∧
      m.ring.txEast.out = some f ∧ m.ring.lastGood = n.ring.lastGood) ∧
    (n.mgmt.held = false → n.mgmt.node = .running → n.ring.role = false →
      let quiet := if n.mgmt.fmstr = true ∧ f.good = true ∧ f.damaged = false ∧ f.master ≠ 0 ∧
        f.master.toNat ≠ n.mgmt.address then 0 else n.ring.quiet
      let heard : Node := { taken with ring := { taken.ring with quiet := quiet } }
      (f.good = true → f.damaged = false →
        let word := ({ heard with ring := { heard.ring with lastGood := f.slots.map (·.sample) } } : Node).readWord f.word
        let slots := word.slotFrame f.slots
        let lane := ((slots.node.freeRuns f.slots).pathCounts f.slots).laneFrame f.seq.toNat f.lane
        word.mgmt.node = .running → lane.restarts = false →
        runs .processFrame (lane.node.sendProcessed p (some (Frame.seal { f with slots := slots.sent, lane := lane.bytes })))) ∧
      (¬(f.good = true ∧ f.damaged = false) →
        runs .processFrame ((heard.laneMissed f.lane).sendProcessed p (some f.markDamaged)))) ∧
    (n.mgmt.held = false → n.mgmt.node = .running → n.ring.role = true → f.master.toNat = n.mgmt.address →
      f.good = true → f.damaged = false →
      let word := (taken.registerFrame f.slots).readWord f.word
      let stored : Node := { word with ring := { word.ring with lastGood := f.slots.map (·.sample) } }
      let lane := stored.laneFrame f.seq.toNat f.lane
      let emptied := if f.seq.toNat % 8 = 0 then lane.node.emptying else stored.emptying
      runs .processFrame (lane.node.relayFeed f.seq.toNat lane.bytes emptied) ∧
      runs .returnedFrame (lane.node.relayFeed f.seq.toNat lane.bytes emptied))

/-- A yielded node whose quiet count is full resumes: role flag set, west transmitter in feed mode, relay store empty. A master
that receives the frame of a master with a lower address yields to it: role flag and alarm source given up, master slot register
and relay store empty, every HELD entry lost, and the frame is relayed. A frame of a master with a higher address is discarded.
Either sets the quiet count to 0, and DUAL MASTER tells of it when the count was full, ahead of what the lost entries report
(log 49), and those report in slot order (log 53). Either role change clears the window being generated (log 67). -/
def Obligations.MasterResumes : Prop :=
  (∀ s : State, s.node.mgmt.fmstr = true → s.node.ring.role = false → s.node.mgmt.node = .running →
    47999 ≤ s.node.ring.quiet → s.node.waitingFrame = none →
    let n := s.node
    ∃ m : Node, exec .masterResume s = .next { s with node := m } ∧ m.ring = { n.ring with
      role := true, turnRepeat := false, quiet := 48000, relay := { run := none, complete := none }
      genWindow := { bytes := List.replicate 64 0, inserting := false } }) ∧
  ∀ (p : Port) (f : Frame) (s : State), s.Inv → s.node.waitingFrame = some (p, f) → s.node.mgmt.held = false →
    s.node.mgmt.node = .running → s.node.mgmt.fmstr = true → s.node.ring.role = true → f.good = true →
    f.damaged = false → f.master ≠ 0 →
    let n := s.node
    let taken : Node := { n with ring := n.ring.setArrival p (.taken (decide (n.mgmt.address < f.master.toNat))) }
    let told := fun (outcome : Byte) =>
      if n.ring.quiet = 48000 then taken.generalNotice 0x81 [outcome, byte n.mgmt.address, f.master] else taken
    (f.master.toNat < n.mgmt.address →
      let m := told 0
      let yielded : Node := { m with
        ring := { m.ring with
          role := false, quiet := 0, relay := { run := none, complete := none }
          genWindow := { bytes := List.replicate 64 0, inserting := false } }
        alarm := { m.alarm with source := { set := false, code := 0, mask := 0, issuer := 0 } }
        slots := { m.slots with register := List.replicate 64 { owner := 0, cls := 0, orphan := 0 } } }
      exec .processFrame s = .next { s with node := (yielded.loseAllHeld).relayFrame p f }) ∧
    (n.mgmt.address < f.master.toNat →
      let m := told 1
      let quiet : Node := { m with ring := { m.ring with
        quiet := 0, relay := { m.ring.relay with run := none } } }
      exec .processFrame s = .next { s with node := quiet.laneMissed f.lane })

/-! ## Events: slots -/

/-- A register entry whose missing writes reach the orphan limit is reclaimed; a release owed ends with its countdown. At a
header of a returned frame the register frees, takes or counts its entry as R27 and R29 give. -/
def Obligations.SlotTimersExpire : Prop :=
  (∀ (k : Nat) (s : State),
    let n := s.node
    (∀ p f, n.waitingFrame = some (p, f) → n.ring.role = true → n.mgmt.node = .running → f.good = true →
      f.damaged = false → f.master.toNat = n.mgmt.address → (headerOf f.slots k).stamped = true →
      (headerOf f.slots k).fresh = false → (n.reg k).owner ≠ 0 → n.ring.orphanLimit ≤ (n.reg k).orphan + 1 →
      ∃ m : Node, exec (.orphanReclaim k) s = .next { s with node := m } ∧ m = { n with slots := m.slots, lane := m.lane } ∧
        m.slots = { n.slots with register := n.slots.register.set k { owner := 0, cls := 0, orphan := 0 } }) ∧
    ((n.entry k).owed = 1 → exec (.releaseOwedExpiry k) s = .next { s with node := { n with
      slots := { n.slots with table := n.slots.table.modify k fun e => { e with owed := 0 } } } })) ∧
  ∀ (h : Headers) (n : Node) (k : Nat),
    let f := headerOf h k
    let e := n.reg k
    let holds := fun (r : RegEntry) =>
      Node.registerStep h n k = { n with slots := { n.slots with register := n.slots.register.set k r } }
    (f.stamped = false → f.ownerOf = 0 → holds { owner := 0, cls := 0, orphan := 0 }) ∧
    (f.stamped = false → f.ownerOf ≠ 0 → e.owner = 0 → k < 56 ∨ 6 ≤ f.classOf →
      holds { owner := f.ownerOf, cls := f.classOf, orphan := 0 }) ∧
    (f.stamped = false → f.ownerOf ≠ 0 → e.owner ≠ 0 → Node.registerStep h n k = n) ∧
    (f.stamped = true → e.owner = 0 → Node.registerStep h n k = n) ∧
    (f.stamped = true → e.owner ≠ 0 → f.fresh = true → holds { e with orphan := 0 }) ∧
    (f.stamped = true → e.owner ≠ 0 → f.fresh = false → e.orphan + 1 < n.ring.orphanLimit →
      holds { e with orphan := e.orphan + 1 })

/-- A claim of 480 frame times fails, and its user is told NO_SLOT: a talk record closes and its SEND is answered, a call ends,
a job ends. At a frame a pending claim takes the first slot of its pool order that is stamped free and not shunned; a CLAIMING
entry that reads its own address is HELD with its attempt count (log 51), one that reads no owner writes its header again, and
one that reads another owner waits again or fails at its third loss, no release owed (log 34); a HELD entry that reads another
owner is lost; a release owed frees the slot and ends. A call that has ended has no talk slot and no bindings (log 20). -/
def Obligations.ClaimTimeoutTellsTheUser : Prop :=
  (∀ (c : Claim) (s : State), s.Inv → 479 ≤ c.age →
    let n := s.node
    (∀ i, i ≤ 7 → n.openClaim (.talk i) = some c → (n.talk i).state = .claiming →
      ∃ m : Node, exec (.claimTimeout (.talk i)) s = .next { s with node := m } ∧
        m = { n with slots := m.slots, lane := m.lane } ∧
        m.talk i = { n.talk i with state := .closed, lastEnd := .noSlot, slot := none } ∧
        m.slots.waiting = n.slots.waiting.filter (fun d => d.user ≠ .talk i) ∧
        (∀ k, m.entry k = if (n.entry k).state = .claiming ∧ (n.entry k).serves (.talk i) = true then
          { state := .idle, claim := none, owed := 480 } else n.entry k) ∧
        m.lane.outbound = n.lane.outbound ++ [n.answer (n.talk i).requester 0x0C .noSlot []]) ∧
    (∀ r, r ≤ 7 → n.openClaim (.call r) = some c → (n.call r).state = .claiming →
      ∃ m : Node, exec (.claimTimeout (.call r)) s = .next { s with node := m } ∧ m.callEnded r .noSlot .here = true) ∧
    (∀ p, p ≤ 1 → n.openClaim (.player p) = some c → (n.player p).job.running = true →
      ∃ m : Node, exec (.claimTimeout (.player p)) s = .next { s with node := m } ∧ m.jobEnded n p .noSlot = true)) ∧
  (∀ (h : Headers) (w : SlotWork) (k : Nat) (c : Claim),
    let n := w.node
    let f := headerOf h k
    let steps := fun (m : Node) (sent : Headers) => SlotWork.entryStep h w k = { node := m, sent := sent }
    let idle := n.modEntry k fun e => { e with state := .idle, claim := none }
    let own : Prop := f.ownerOf = n.mgmt.address
    ((n.entry k).state = .claiming → (n.entry k).claim = some c →
      (f.stamped = false → steps n w.sent) ∧
      (f.stamped = true → own →
        (SlotWork.entryStep h w k).node = (n.modEntry k fun e => { e with state := .held }).tell c.user (.confirmed k)) ∧
      (f.stamped = true → ¬own → f.ownerOf = 0 →
        steps n (w.sent.set k (.make n.mgmt.address c.cls false true (n.userSample c.user)))) ∧
      (f.stamped = true → ¬own → f.ownerOf ≠ 0 →
        (2 ≤ c.attempts → steps (idle.tell c.user .noSlot) w.sent) ∧
        (c.attempts < 2 → steps (idle.setWaiting
          (insertByOrder { c with attempts := c.attempts + 1 } n.slots.waiting)) w.sent))) ∧
    ((n.entry k).state = .held → (n.entry k).claim = some c →
      (f.stamped = false → steps n w.sent) ∧
      (f.stamped = true → own → steps n (w.sent.set k
        { f with flags := (f.flags &&& 0x0F) ||| 16, sample := n.userSample c.user })) ∧
      (f.stamped = true → ¬own → steps (idle.tell c.user .lost) w.sent)) ∧
    ((n.entry k).state = .idle → (n.entry k).owed ≠ 0 →
      let paid := n.modEntry k fun e => { e with owed := 0 }
      (f.stamped = false ∨ f.ownerOf = 0 → steps n w.sent) ∧
      (f.stamped = true → f.ownerOf ≠ 0 → own → steps paid (w.sent.set k { owner := 0, flags := 0, sample := 0 })) ∧
      (f.stamped = true → f.ownerOf ≠ 0 → ¬own → steps paid w.sent))) ∧
  ∀ (h : Headers) (w : SlotWork) (c : Claim),
    let n := w.node
    let usable := fun (k : Nat) => (headerOf h k).stamped && decide ((headerOf h k).ownerOf = 0) &&
      decide ((n.entry k).state = .idle) && decide ((n.entry k).owed = 0)
    ((poolOrder c.cls).find? usable = none → SlotWork.search h w c = w) ∧
    ∀ k, (poolOrder c.cls).find? usable = some k → SlotWork.search h w c =
      { node := (n.setWaiting (n.slots.waiting.filter fun d => d.user != c.user)).modEntry k
          fun e => { e with state := .claiming, claim := some c }
        sent := w.sent.set k (.make n.mgmt.address c.cls false true (n.userSample c.user)) }

/-! ## Events: zones -/

/-- A RELEASING layer whose fade falls to its end leaves its stack: the stack is settled, the binding loses the zone's bit, and
a binding without zones becomes FREE. A settled stack keeps its layers in their places: every layer of a MIX class and the top
layer of a QUEUE class is ACTIVE, the others of a QUEUE class are HELD, RELEASING ones stay so, a changed layer's fade begins at
-384, and each duck target is the least of 0 and the duck values of the ACTIVE layers of higher classes. -/
def Obligations.FadeEndRemovesTheLayer : Prop :=
  (∀ (z id : Nat) (b : Binding) (l : Layer) (s : State), s.Inv → s.node.mgmt.node ≠ .starting → z ≤ 15 →
    layerOf (s.node.stack z) id = some l → l.state = .releasing → l.fresh = false → l.fade ≤ -380 →
    s.node.binding id = some b →
    let n := s.node
    let rest := settleStack n.classRecord ((n.stack z).filter fun l => l.binding ≠ id)
    let zones := b.zones &&& ~~~(BitVec.twoPow 16 z)
    (zones ≠ 0 → exec (.layerFadeEnd z id) s = .next { s with node := { n with
      mixer := { n.mixer with zones := n.mixer.zones.modify z (fun r => { r with stack := rest })
                              bindings := n.mixer.bindings.set id (some { b with zones := zones }) } } }) ∧
    (zones = 0 → b.isRemote = true → b.source ≠ .callTone →
      ∃ m : Node, exec (.layerFadeEnd z id) s = .next { s with node := m } ∧ m = { n with mixer := m.mixer, lane := m.lane } ∧
        m.mixer = { n.mixer with zones := n.mixer.zones.modify z (fun r => { r with stack := rest })
                                 bindings := n.mixer.bindings.set id none })) ∧
  ∀ (classes : Nat → ClassRecord) (st : List Layer),
    let out := settleStack classes st
    out.length = st.length ∧ ∀ (i : Nat) (l : Layer), st[i]? = some l → ∃ m : Layer, out[i]? = some m ∧
      m = { l with state := m.state, fade := m.fade, fresh := m.fresh, target := m.target } ∧
      (l.state = .releasing → m.state = .releasing) ∧
      (l.state ≠ .releasing → (classes l.cls).equal = .mix → m.state = .active) ∧
      (l.state ≠ .releasing → (classes l.cls).equal = .queue →
        ((∀ (j : Nat) (x : Layer), j < i → st[j]? = some x → x.state ≠ .releasing → x.cls ≠ l.cls) → m.state = .active) ∧
        ((∃ (j : Nat) (x : Layer), j < i ∧ st[j]? = some x ∧ x.state ≠ .releasing ∧ x.cls = l.cls) → m.state = .held)) ∧
      (m.state = l.state → m.fade = l.fade ∧ m.fresh = l.fresh) ∧ (m.state ≠ l.state → m.fade = -384 ∧ m.fresh = true) ∧
      m.target ≤ 0 ∧ (∀ x ∈ out, x.state = .active → m.cls < x.cls → m.target ≤ (classes x.cls).duck) ∧
      (m.target = 0 ∨ ∃ x ∈ out, x.state = .active ∧ m.cls < x.cls ∧ m.target = (classes x.cls).duck)

/-- A volume count of 12 moves V one step toward its target, and a duck count of 24 lifts D one step; nothing else changes but
the mark that the coming frame time's count is taken. In a zone computation D falls one step each time, the fade of an ACTIVE
layer rises 4 steps to 0 and that of a RELEASING one falls 4 to -384, unless an event of this frame time has set it. -/
def Obligations.RampsMoveOneStep : Prop :=
  (∀ (z : Nat) (s : State), s.Inv → s.node.mgmt.node ≠ .starting → z ≤ 15 →
    let n := s.node
    (Share.volume z ∉ n.early → (n.zone z).vol ≠ (n.zone z).volTarget → 11 ≤ (n.zone z).volCount →
      exec (.volumeStep z) s = .next { s with node := { n with
        early := .volume z :: n.early
        mixer := { n.mixer with zones := n.mixer.zones.set z { n.zone z with
          volCount := 0
          vol := (n.zone z).vol + if (n.zone z).vol < (n.zone z).volTarget then 1 else -1 } } } }) ∧
    (∀ id l, Share.duck z id ∉ n.early → layerOf (n.stack z) id = some l → l.duck < l.target → 23 ≤ l.duckCount →
      ∃ m : Node, exec (.duckLiftStep z id) s = .next { s with node := m } ∧
        m = { n with mixer := { n.mixer with zones := m.mixer.zones }, early := .duck z id :: n.early } ∧
        layerOf (m.stack z) id = some { l with duck := l.duck + 1, duckCount := 0 } ∧
        (m.stack z).filter (fun l => l.binding ≠ id) = (n.stack z).filter (fun l => l.binding ≠ id) ∧
        m.zone z = { n.zone z with stack := m.stack z } ∧ ∀ y, y ≠ z → m.zone y = n.zone y)) ∧
  ∀ (n : Node) (z : Nat) (l : Layer), Share.duck z l.binding ∉ n.early →
    let m := n.rampLayer z l
    m = { l with fade := m.fade, duck := m.duck, duckCount := m.duckCount, fresh := false } ∧
    (l.target < l.duck → m.duck = l.duck - 1 ∧ m.duckCount = 0) ∧
    (l.duck < l.target → if 24 ≤ l.duckCount + 1 then m.duck = l.duck + 1 ∧ m.duckCount = 0
      else m.duck = l.duck ∧ m.duckCount = l.duckCount + 1) ∧
    (l.duck = l.target → m.duck = l.duck ∧ m.duckCount = 0) ∧
    m.fade = if l.fresh = true then l.fade else match l.state with
      | .active => min 0 (l.fade + 4)
      | .held => -384
      | .releasing => max (-384) (l.fade - 4)

/-! ## Events: alarms -/

/-- The 960th reading of a contact that differs from its taken state changes that state, which is a change event: the change
record takes its source, code, mask and run stamp. A set alarm word read twice running becomes the confirmed word, which is a
change event of source RING. A fire zone's entry is the claim on it of the highest precedence, of RING before C0 before C1 among
equals, and a zone's effective code is its fire zone's or, for all fire zones, the highest in the table. -/
def Obligations.ContactDebounceChangesTheContact : Prop :=
  (∀ (k : Nat) (s : State), s.Inv → k ≤ 1 → s.node.mgmt.node ≠ .starting → s.node.library.ops = [] →
    let n := s.node
    let c := n.contact k
    let high := if k = 0 then n.pins.contact0 else n.pins.contact1
    let e : ChangeEntry :=
      { source := if k = 0 then .c0 else .c1, code := if c.asserted then 0 else c.code, mask := c.mask, issuer := 0
        stamp := c.stamp }
    c.enabled = true → decide (high = c.activeHigh) ≠ c.asserted → 959 ≤ c.run →
    ∃ m : Node, exec (.contactDebounce k) s = .next { s with node := m } ∧
      m.contact k = { c with asserted := !c.asserted, run := 0 } ∧ m.contact (1 - k) = n.contact (1 - k) ∧
      m.alarm.latest = some e ∧ m.alarm.firstUnread = (n.alarm.firstUnread <|> some e) ∧
      m.alarm.unread = min 255 (n.alarm.unread + 1) ∧ m.alarm.confirmed = n.alarm.confirmed ∧ m.ring = n.ring) ∧
  (∀ (n : Node) (w : AlarmWord),
    (w.set = false → n.readWord w = n) ∧
    (w.set = true → w ≠ n.alarm.candidate → n.readWord w = { n with alarm := { n.alarm with candidate := w } }) ∧
    (w.set = true → w = n.alarm.candidate → w = n.alarm.confirmed → n.readWord w = n) ∧
    (w.set = true → w = n.alarm.candidate → w ≠ n.alarm.confirmed →
      n.readWord w = Node.changeAndRecompute { n with alarm := { n.alarm with confirmed := w } }
        { source := .ring, code := w.code, mask := w.mask, issuer := w.issuer, stamp := n.ring.counter })) ∧
  (∀ (a : Alarm) (f : Nat), a.contacts.length = 2 →
    let claim := fun (source : AlarmFrom) (code : Nat) =>
      match source with
      | .ring => a.confirmed.set = true ∧ a.confirmed.mask.getLsbD f = true ∧ a.confirmed.code = code
      | .c0 => let c := a.contacts.getD 0 .reset
        c.enabled = true ∧ c.asserted = true ∧ c.mask.getLsbD f = true ∧ c.code = code
      | .c1 => let c := a.contacts.getD 1 .reset
        c.enabled = true ∧ c.asserted = true ∧ c.mask.getLsbD f = true ∧ c.code = code
      | .none => False
    let e := a.fireEntry f
    (e.source = .none → e.code = 0 ∧ ∀ source code, code ∈ precedence → ¬claim source code) ∧
    (e.source ≠ .none → e.code ∈ precedence ∧ claim e.source e.code ∧
      (∀ source code, claim source code → code ∈ precedence → precedence.idxOf e.code ≤ precedence.idxOf code) ∧
      (claim .ring e.code → e.source = .ring) ∧ (claim .c0 e.code → e.source = .ring ∨ e.source = .c0))) ∧
  precedence = [1, 8, 9, 10, 11, 12, 13, 14, 15, 2, 3, 4, 5, 6, 7] ∧
  ∀ (n : Node) (z : Nat),
    (∀ f, (n.zone z).fireZone = .one f → n.zoneCode z = (n.alarm.table.getD f { code := 0, source := .none }).code) ∧
    ((n.zone z).fireZone = .all →
      ((∀ e ∈ n.alarm.table, e.code ∉ precedence) → n.zoneCode z = 0) ∧
      ((∃ e ∈ n.alarm.table, e.code ∈ precedence) → n.zoneCode z ∈ precedence ∧
        (∃ e ∈ n.alarm.table, e.code = n.zoneCode z) ∧
        ∀ e ∈ n.alarm.table, e.code ∈ precedence → precedence.idxOf (n.zoneCode z) ≤ precedence.idxOf e.code))

/-- The last output of a generator's step: its timer becomes 0, its phase moves on, and it goes to the next step, to the loop
start, or ENDED. -/
def Obligations.GeneratorStepsGoOn : Prop :=
  ∀ (g : Gen) (s : State), s.Inv → (∀ a, g = .channel a → a ≤ 1) → s.node.mgmt.node ≠ .starting →
    Share.generator g ∉ s.node.early →
    let n := s.node
    let old := n.generator g
    let sig := n.alarm.signalOf old.signal
    let st := sig.steps.getD old.step ⟨0, 0, 10⟩
    old.state = .running → st.ms * 48 ≤ old.timer + 1 →
    ∃ m : Node, exec (.generatorStepEnd g) s = .next { s with node := m } ∧
      m = { n with alarm := m.alarm, early := .generator g :: n.early } ∧
      (m.generator g).timer = 0 ∧ (m.generator g).signal = old.signal ∧
      (m.generator g).phase = old.phase + BitVec.ofNat 24 (if st.hz = 0 then 0 else phaseIncrement st.hz) ∧
      (if old.step + 1 < sig.steps.length then (m.generator g).step = old.step + 1 ∧ (m.generator g).state = .running
       else match sig.loop with
        | some l => (m.generator g).step = l ∧ (m.generator g).state = .running
        | none => (m.generator g).state = .ended)

/-- The end of an alarm channel's period, the other channel's not being due: without a voice entry another period begins; with one
the channel enters VOICE with its generator PAUSED, and P1 takes the message. In a recomputation a needed signal that is on an
active channel stays there, another takes the lowest channel without a needed signal from its first step, and an active channel
left without one drains its layers or becomes IDLE, its code then 0 (log 20); fields of a channel and a generator that
no rule sets keep their values (log 70). A zone's alarm layer leaves the channel it is on
before it joins the desired one. -/
def Obligations.AlarmPeriodsEnd : Prop :=
  (∀ (a : Nat) (s : State), s.Inv → a ≤ 1 → s.node.mgmt.node ≠ .starting → Share.period a ∉ s.node.early →
    let n := s.node
    let c := n.channel a
    c.phase = .signal → (n.codeEntry c.code).period * 48000 ≤ c.timer + 1 → n.periodDue (1 - a) = false →
    (n.voiceEntry a = none → exec (.alarmPeriodEnd a) s = .next { s with node := { n with
      alarm := { n.alarm with channels := n.alarm.channels.set a { c with timer := 0 } }
      early := .period a :: n.early } }) ∧
    (∀ e, n.voiceEntry a = some e → ∃ m : Node, exec (.alarmPeriodEnd a) s = .next { s with node := m } ∧
      m.channel a = { c with phase := .voice, gen := { c.gen with state := .paused, out := 0 }, out := 0 } ∧
      m.channel (1 - a) = n.channel (1 - a) ∧
      (m.player 1).voice = some { start := e.start, length := e.length, trim := e.trim, position := 0, half := .first } ∧
      (m.player 1).streamOpen = true)) ∧
  (∀ (n : Node) (top : List (Nat × Nat)) (a signal code : Nat), a ≤ 1 → n.alarm.channels.length = 2 →
    let c := n.channel a
    let put := fun (c : Channel) => ({ n with alarm := { n.alarm with channels := n.alarm.channels.set a c } } : Node)
    let on := fun (a : Nat) (s : Nat) =>
      ((n.channel a).phase = .signal ∨ (n.channel a).phase = .voice) ∧ (n.channel a).signal = some s
    let needed := fun (a : Nat) => ∃ x ∈ top, on a x.1
    (on a signal → (a = 1 → ¬on 0 signal) →
      n.keepSignal (signal, code) = put { c with code := code } ∧ Node.placeSignal top n (signal, code) = n) ∧
    (¬on 0 signal → ¬on 1 signal → n.keepSignal (signal, code) = n) ∧
    (¬on 0 signal → ¬on 1 signal → ¬needed a → (a = 1 → needed 0) → c.phase ≠ .voice →
      Node.placeSignal top n (signal, code) = put { c with
        phase := .signal, signal := some signal, code := code, timer := 0
        gen := { c.gen with state := .running, signal := signal, step := 0, timer := 0, phase := 0 } }) ∧
    (needed a ∨ (c.phase ≠ .signal ∧ c.phase ≠ .voice) → Node.giveUpSignal top n a = n) ∧
    (¬needed a → c.phase = .signal →
      ((n.binding (62 + a)).isSome = true →
        Node.giveUpSignal top n a = put { c with phase := .draining, signal := none, code := 0 }) ∧
      (n.binding (62 + a) = none → Node.giveUpSignal top n a = put { c with
        phase := .idle, signal := none, code := 0, gen := { c.gen with state := .idle, out := 0 } }))) ∧
  ∀ (n : Node) (needed : List (Nat × Nat)) (z : Nat),
    let desired := n.desiredChannel needed z
    let current := n.currentChannel z
    let left := match current with
      | some a => n.removeZone a z
      | none => n
    (desired = current → Node.placeZone needed n z = n) ∧
    (desired ≠ current → desired = none → Node.placeZone needed n z = left) ∧
    ∀ a, desired ≠ current → desired = some a → Node.placeZone needed n z = left.addZone a z

/-- The last output of a VOICE: P1 is freed, and the channel goes back to SIGNAL with its generator at the first step. -/
def Obligations.VoiceEndsInSignal : Prop :=
  ∀ (v : Voice) (sample : LibSample) (rest : List LibSample) (a : Nat) (s : State), s.Inv → s.node.mgmt.node ≠ .starting →
    Share.player 1 ∉ s.node.early → s.node.library.ops = [] → s.node.voiceChannel = some a →
    (s.node.player 1).voice = some v → v.half = .second → v.position + 1 = v.length →
    (s.node.player 1).underrunPair = false → (s.node.player 1).queue = sample :: rest →
    let n := s.node
    ∃ m : Node, exec .voiceEnd s = .next { s with node := m } ∧ (m.player 1).voice = none ∧
      (m.player 1).streamOpen = false ∧ (m.player 1).queue = [] ∧ (m.channel a).phase = .signal ∧ (m.channel a).timer = 0 ∧
      (m.channel a).signal = (n.channel a).signal ∧ (m.channel a).gen.state = .running ∧ (m.channel a).gen.step = 0 ∧
      (m.channel a).gen.timer = 0 ∧ (m.channel a).gen.phase = 0

/-! ## Events: calls -/

/-- OFFER from any source (log 59) to a station in use and at rest, at a slave with a record available and no alarm or limit in
its zone: a callee record is taken CLAIMING with the caller's node, call id, number, class and slot, and its claim joins the
pending list. The record notes its change of state (log 21). -/
def Obligations.OfferTakesARecord : Prop :=
  ∀ (p : Packet) (rest : List Packet) (i r : Nat) (s : State), s.Inv → s.node.lane.inbound = p :: rest → p.kind = 0x90 →
    s.node.mgmt.node = .running → s.node.mgmt.held = false → p.payload.length = 7 →
    let n := s.node
    let cls := byteAt p.payload 5
    let z := (n.station i).speaker
    cls = 4 ∨ cls = 7 → byteAt p.payload 6 ≤ 63 → n.calledStation (natOf (slice p.payload 2 2)) = some i →
    n.offerRepeats p = false → n.availableRecord = some r → n.stationBusy i = false →
    (cls = 4 → ∀ l ∈ n.stack z, l.state ≠ .releasing → l.cls < 6) →
    (cls = 7 → liveCount (n.stack z) 7 < (n.classRecord 7).limit) → n.ring.role = false → n.hasClaim (.call r) = false →
    let c : CallRecord := { CallRecord.reset with
      state := .claiming, changed := true, role := .callee, serial := ((n.call r).serial + 1) % 32, station := i
      number := natOf (slice p.payload 0 2), cls := cls, remote := some p.src, remoteId := some (byteAt p.payload 4)
      listen := some (byteAt p.payload 6), clearReason := (n.call r).clearReason, clearSide := (n.call r).clearSide }
    let claim : Claim := { user := .call r, cls := cls, attempts := 0, age := 0, order := n.slots.nextOrder }
    exec .offer s = .next { s with node := { n with
      calls := { n.calls with records := n.calls.records.set r c }
      slots := { n.slots with waiting := n.slots.waiting ++ [claim], nextOrder := n.slots.nextOrder + 1 }
      lane := { n.lane with inbound := rest } } }

/-- A caller in OFFERING: the first RINGING, from any source (log 59), makes its sender the remote and the call ALERTING; a REJECT
is recorded when it is the first, and the call stays in OFFERING. -/
def Obligations.OfferingHearsTheCallee : Prop :=
  ∀ (p : Packet) (rest : List Packet) (r : Nat) (s : State), s.Inv → s.node.lane.inbound = p :: rest →
    s.node.mgmt.node = .running → s.node.mgmt.held = false → s.node.recordOf (byteAt p.payload 0) = some r →
    (s.node.call r).role = .caller → (s.node.call r).state = .offering →
    let n := s.node
    (p.kind = 0x91 → p.payload.length = 3 → byteAt p.payload 2 ≤ 63 →
      ∃ m : Node, exec .ringing s = .next { s with node := m } ∧ m.lane.inbound = rest ∧ (m.call r).state = .alerting ∧
        (m.call r).remote = some p.src ∧ (m.call r).remoteId = some (byteAt p.payload 1) ∧
        (m.call r).listen = some (byteAt p.payload 2) ∧ (m.call r).path = 0 ∧ (m.call r).timer = 0) ∧
    (∀ why, p.kind = 0x93 → p.payload.length = 4 → Reason.ofCode (byteAt p.payload 3) = some why →
      exec .reject s = .next { s with node := { n with
        calls := { n.calls with records := n.calls.records.modify r fun c =>
          { c with firstReject := if c.firstReject = none then some why else c.firstReject } }
        lane := { n.lane with inbound := rest } } })

/-- A call ends with the reason and side its event gives: HANGUP, the three timeouts, the 48th frame without its listen slot, at a
slave and at a master, CLEAR, and a REJECT of an alerting call. A call that has ended has no talk slot and no bindings (log 20).
The path count of a record that supervises its listen slot becomes 0 at a stamped header of its remote and counts another stamped
header; it stays at an unstamped one, in a frame time of a change of state (log 21), and at a master in a held frame time and in
ISOLATED. -/
def Obligations.CallsEndWithTheirReason : Prop :=
  (∀ (n : Node) (h : Headers) (r : Nat),
    let c := n.call r
    let watched : Prop := (c.role = .caller ∧ (c.state = .alerting ∨ c.state = .connected)) ∨
      (c.role = .callee ∧ (c.state = .claiming ∨ c.state = .ringing ∨ c.state = .connected))
    let counts := fun (path : Nat) => n.pathStep h r = { n with
      calls := { n.calls with records := n.calls.records.modify r fun c => { c with path := path } } }
    (c.listen = none → n.pathStep h r = n) ∧
    ∀ k, c.listen = some k →
      let f := headerOf h k
      (¬watched ∨ c.changed = true ∨ f.stamped = false → n.pathStep h r = n) ∧
      (watched → c.changed = false → f.stamped = true →
        (c.remote = some f.ownerOf → counts 0) ∧ (c.remote ≠ some f.ownerOf → c.path < 47 → counts (c.path + 1)))) ∧
  (∀ (n : Node) (h : Headers), n.ring.role = true → n.mgmt.node = .running →
    (n.ring.wrap = .isolated → n.readGenerated h = n) ∧
    ∀ p, n.ring.wrap.primary = some p →
      let held : Prop := match n.ring.arrival p with
        | .none => True
        | .frame f => ¬(f.good = true ∧ f.damaged = false ∧ (f.master.toNat = n.mgmt.address ∨
            (n.mgmt.fmstr = true ∧ f.master ≠ 0 ∧ f.master.toNat < n.mgmt.address)))
        | .taken held => held = true
      (held → n.readGenerated h = n.freeRuns h) ∧ (¬held → n.readGenerated h = (n.freeRuns h).pathCounts h)) ∧
  ∀ (r : Nat) (s : State), s.Inv → r ≤ 7 →
    let n := s.node
    let c := n.call r
    let ends := fun (i : Instr) (why : Reason) (side : Side) =>
      ∃ m : Node, exec i s = .next { s with node := m } ∧ m.callEnded r why side = true ∧
        m = { n with slots := m.slots, mixer := m.mixer, calls := m.calls, lane := m.lane }
    (∀ who id, n.ready who = true → n.recordOf id = some r → ends (.hangup who id) .hangup .here) ∧
    (c.role = .caller → c.state = .offering → 47999 ≤ c.timer →
      (c.firstReject = none → ends (.offerTimeout r) .notFound .here) ∧
      ∀ why, c.firstReject = some why → ends (.offerTimeout r) why .remote) ∧
    (c.role = .caller → c.state = .alerting → 1439999 ≤ c.timer → ends (.alertingTimeout r) .noAnswer .here) ∧
    (c.role = .callee → c.state = .ringing → 1439999 ≤ c.timer → ends (.ringingTimeout r) .noAnswer .here) ∧
    (∀ p f k, n.waitingFrame = some (p, f) → n.ring.role = false → f.good = true → f.damaged = false →
      c.supervises = true → c.listen = some k → (headerOf f.slots k).stamped = true →
      c.remote ≠ some (headerOf f.slots k).ownerOf → 47 ≤ c.path → c.changed = false → ends (.pathLost r) .pathLost .here) ∧
    (∀ p f k, n.waitingFrame = some (p, f) → n.ring.role = true → n.mgmt.node = .running → f.good = true → f.damaged = false →
      f.master.toNat = n.mgmt.address → c.supervises = true → c.listen = some k → k ≤ 63 →
      c.remote ≠ some (headerOf n.registerHeaders k).ownerOf → 47 ≤ c.path → ends (.pathLost r) .pathLost .here) ∧
    (∀ p, n.ring.wrap.primary = some p → n.ring.arrival p = .none → exec (.pathLost r) s = .next s) ∧
    ∀ p rest why, n.lane.inbound = p :: rest → n.mgmt.node = .running → n.mgmt.held = false →
      n.recordOf (byteAt p.payload 0) = some r → c.remote = some p.src → c.remoteId = some (byteAt p.payload 1) →
      (p.kind = 0x94 → p.payload.length = 3 → Reason.ofCode (byteAt p.payload 2) = some why → ends .clear why .remote) ∧
      (p.kind = 0x93 → p.payload.length = 4 → byteAt p.payload 2 = 1 → Reason.ofCode (byteAt p.payload 3) = some why →
        c.role = .caller → c.state = .alerting → ends .reject why .remote)

/-- The head of the send list goes to the outbound queue when that has signalling room, fewer than 7 entries and reservations,
and waits otherwise. The head of the outbound queue goes into an EMPTY window at a relaying node, and leaves the queue with the
last frame of the window, if none of its frame times was held or out of sequence (log 17). A window whose source is this node is
emptied, bytes 56 to 61 going on as received (log 16), and its delivery byte is the packet's outcome. -/
def Obligations.SendListHandsOff : Prop :=
  (∀ (e : SendEntry) (rest : List SendEntry) (s : State), s.node.mgmt.node = .running → s.node.calls.sendList = e :: rest →
    let n := s.node
    (n.lane.outbound.length + n.lane.reservations < 7 → exec .sendListHandoff s = .next { s with node := { n with
      calls := { n.calls with sendList := rest }
      lane := { n.lane with outbound := n.lane.outbound ++ [e.packet] } } }) ∧
    (7 ≤ n.lane.outbound.length + n.lane.reservations → exec .sendListHandoff s = .next s)) ∧
  ∀ (n : Node) (window : Nat) (lane : List Byte), n.lane.follow = none → lane.length = 8 →
    let follows := fun (job : WindowJob) (bytes : List Byte) => n.laneFrame (8 * window) lane = ⟨{ n with lane := { n.lane with
      follow := some { window := window, next := 1, bytes := lane, whole := true, job := job } } }, bytes, false⟩
    let occupied : Prop := lane.getD 0 0 = 0xA1 ∨ lane.getD 0 0 = 0xA2
    (∀ p rest, ¬occupied → n.ring.role = false → n.lane.outbound = p :: rest →
      follows (.insert p.window) (slice p.window 0 8) ∧
      ∀ m : Node, ∀ f : Follow, m.lane.follow = some f → f.job = .insert p.window → m.lane.outbound = p :: rest →
        m.mgmt.restart = none →
        (f.next < 7 → (m.laneFrame (8 * f.window + f.next) lane).bytes = slice p.window (8 * f.next) 8) ∧
        (f.next = 7 → m.laneFrame (8 * f.window + 7) lane = ⟨{ m with lane := { m.lane with
          follow := none, outbound := if f.whole = true then rest else p :: rest } }, slice p.window 56 8, false⟩)) ∧
    (¬occupied → n.lane.outbound = [] ∨ n.ring.role = true → follows .pass lane) ∧
    (occupied → byteAt lane 2 = n.mgmt.address → follows .strip (List.replicate 8 0)) ∧
    (lane.getD 0 0 = 0xA2 → byteAt lane 2 ≠ n.mgmt.address → n.ring.role = true → follows .discard (List.replicate 8 0)) ∧
    (lane.getD 0 0 = 0xA1 → byteAt lane 2 ≠ n.mgmt.address → n.ring.role = true → follows .receive (0xA2 :: lane.drop 1)) ∧
    (occupied → byteAt lane 2 ≠ n.mgmt.address → n.ring.role = false → follows .receive lane) ∧
    ∀ m : Node, ∀ f : Follow, m.lane.follow = some f → f.job = .strip →
      (f.next < 7 → (m.laneFrame (8 * f.window + f.next) lane).bytes = List.replicate 8 0) ∧
      ∀ p, f.next = 7 → f.whole = true → Packet.ofWindow (f.bytes ++ lane) = some p →
        let verdict := if lane.getD 7 0 = 0xC1 then Delivery.copied else if lane.getD 7 0 = 0xC2 then .refused else .none
        m.laneFrame (8 * f.window + 7) lane =
          ⟨({ m with lane := { m.lane with follow := none } } : Node).deliveryOutcome p verdict, lane.take 6 ++ [0, 0], false⟩

/-! ## Events: players -/

/-- A waiting job whose WAIT gate is open goes on, to PLAYING or to CLAIMING while its claim is not held, its timer then 0
(log 43); one that has waited 1,440,000 frame times ends with TIMEOUT. -/
def Obligations.WaitingJobsGoOn : Prop :=
  ∀ (p : Nat) (s : State), s.Inv → p ≤ 1 → (s.node.player p).job.state = .waiting →
    let n := s.node
    let q := n.player p
    let j := q.job
    ((j.wait = true → ∀ z, z ≤ 15 → ∀ l ∈ n.stack z, j.binding = some l.binding → l.state ≠ .held) →
      exec (.waitGateOpen p) s = .next { s with node := { n with players := { n.players with
        players := n.players.players.set p { q with job :=
          if j.ringOut = true ∧ j.claim ≠ .held then { j with state := .claiming, timer := 0 }
          else { j with state := .playing, passCount := min 65535 (j.passCount + 1), position := 0, half := .first
                        timer := 0 } } } } }) ∧
    (1439999 ≤ j.timer → ∃ m : Node, exec (.jobTimeout p) s = .next { s with node := m } ∧ m.jobEnded n p .timeout = true ∧
      ∀ q, q ≠ p → m.player q = n.player q)

/-- The end of a pass completes a job on its last pass, and begins a gap or the next pass otherwise; a gap ends in the next
pass, whose timer is 0 (log 43). -/
def Obligations.PassesFollowEachOther : Prop :=
  ∀ (p : Nat) (s : State), s.Inv → p ≤ 1 → s.node.mgmt.node ≠ .starting → Share.player p ∉ s.node.early →
    let n := s.node
    let q := n.player p
    let j := q.job
    let lastPass : Prop := j.passes ≠ 0 ∧ j.passes ≤ j.passCount
    let playsNext := fun (m : Node) => (m.player p).job.state = .playing ∧ (m.player p).job.position = 0 ∧
      (m.player p).job.half = .first ∧ (m.player p).job.timer = 0 ∧
      (m.player p).job.passCount = min 65535 (j.passCount + 1)
    (q.voice = none → j.state = .playing → j.half = .second → q.underrunPair = false → q.queue ≠ [] →
      j.position + 1 = j.length → ∃ m : Node, exec (.passEnd p) s = .next { s with node := m } ∧
        (lastPass → m.jobEnded n p .complete = true) ∧
        (¬lastPass → 0 < j.gap → (m.player p).job.state = .gap ∧ (m.player p).job.timer = 0) ∧
        (¬lastPass → j.gap = 0 → playsNext m)) ∧
    (j.state = .gap → j.gap ≤ j.timer + 1 →
      ∃ m : Node, exec (.gapEnd p) s = .next { s with node := m } ∧ playsNext m)

/-! ## Events: flash -/

/-- A completed erase phase leaves its sector at 0xFF, a completed write phase leaves each byte of its data ANDed in, and every
other byte of flash is as it was. -/
def Obligations.FlashPhasesChangeTheirSector : Prop :=
  ∀ (op : FlashOp) (rest : List FlashOp) (s : State), s.Inv → s.node.library.ops = op :: rest → s.node.tookFlash = false →
    let n := s.node
    let base := op.sector * 4096 + op.offset
    (op.phase = .erasing → 1919 ≤ op.timer → ∃ m : Node, exec .flashPhaseComplete s = .next { s with node := m } ∧
      ∀ a, Memory.read m.library.flash a = if a / 4096 = op.sector then 0xFF else Memory.read n.library.flash a) ∧
    (op.phase = .writing → (12 * op.data.length + 24) / 25 ≤ op.timer + 1 →
      ∃ m : Node, exec .flashPhaseComplete s = .next { s with node := m } ∧
        ∀ a, a < 8388608 → Memory.read m.library.flash a =
          if base ≤ a ∧ a < base + op.data.length then Memory.read n.library.flash a &&& op.data.getD (a - base) 0
          else Memory.read n.library.flash a)

/-- SIGLOCK asserted abandons the running erase or write of a protected sector with PROTECTED and changes no byte outside that
sector; with no such phase it only shows on the pin. -/
def Obligations.SiglockAbandonsProtectedWork : Prop :=
  ∀ s : State,
    let n := s.node
    ((∀ op ∈ n.library.ops.head?, op.phase = .waiting ∨ 256 ≤ op.sector ∨ op.kind = .save ∨ op.kind = .reload) →
      exec .siglockAssert s = .next { s with node := { n with pins := { n.pins with siglock := true } } }) ∧
    (∀ op, n.library.ops = [op] → op.phase ≠ .waiting → op.sector < 256 → op.kind = .erase ∨ op.kind = .write →
      op.offset + op.data.length ≤ 4096 → n.library.readWaits = [] → n.players.waits = [] →
      ∃ m : Node, exec .siglockAssert s = .next { s with node := m } ∧ m.pins.siglock = true ∧ m.library.ops = [] ∧
        m.lane.outbound = n.lane.outbound ++ [n.answer op.who op.kind.command .isProtected []] ∧
        ∀ a, a / 4096 ≠ op.sector → Memory.read m.library.flash a = Memory.read n.library.flash a)

/-! ## Rules of one operation -/

/-- R6: a frame at a port in ACQUIRING sets its run count and its expected sequence, brings the port to LOCKED at 16 with its
locked run and error window at 0, and adds nothing to the total check errors; a damaged mark leaves a frame good. -/
def Obligations.AcquiringUpdatesTheRun : Prop :=
  ∀ (p : PortRecord) (threshold : Nat) (f : Frame), p.state = .acquiring → p.run < 16 →
    let q := p.tick threshold (some f)
    let run := if f.good = true then (if p.expected = some f.seq.toNat then p.run + 1 else 1) else 0
    q.run = run ∧
    q.expected = (if f.good = true then some ((f.seq.toNat + 1) % 256) else p.expected.map fun e => (e + 1) % 256) ∧
    q.totalErrors = p.totalErrors ∧ (run < 16 → q.state = .acquiring) ∧
    (run = 16 → q.state = .locked ∧ q.lockedRun = 0 ∧ q.windowPos = 0 ∧ q.windowErrors = 0) ∧
    f.markDamaged.damaged = true ∧ f.markDamaged.good = true

/-- A packet inserted in a window reads back as it was: destination, source, kind, tag and payload. -/
def Obligations.PacketsReadBack : Prop :=
  ∀ p : Packet, p.dest ≤ 255 → p.src ≤ 255 → p.kind ≤ 255 → p.tag ≤ 255 → p.payload.length ≤ 55 →
    p.window.length = 64 ∧ Occupancy.ofByte (p.window.getD 0 0) = .full ∧ Packet.ofWindow p.window = some p

/-- R25: the pool order of each class, the general slots that class 6 and 7 take last, and the tentative header of class 0-5
that the register does not record in a reserve slot. -/
def Obligations.PoolOrderByClass : Prop :=
  (∀ c, c ≤ 5 → poolOrder c = List.range 56) ∧
  (∀ c, c = 6 ∨ c = 7 → poolOrder c = (List.range 8).map (56 + ·) ++ List.range 56) ∧
  (∀ (c : Nat) (usable : Nat → Bool) (k : Nat), c = 6 ∨ c = 7 → (poolOrder c).find? usable = some k → k < 56 →
    ∀ j, 56 ≤ j → j ≤ 63 → usable j = false) ∧
  ∀ (h : Headers) (n : Node) (k : Nat), 56 ≤ k → (headerOf h k).stamped = false → (headerOf h k).ownerOf ≠ 0 →
    (headerOf h k).classOf ≤ 5 → Node.registerStep h n k = n

/-- R48: a zone record matches a selector by its fire zone and its kind; an empty mask matches none and is no error, the full
selector matches every zone, and the logical zone number plays no part. -/
def Obligations.SelectorsMatchZones : Prop :=
  ∀ (r : Zone) (fires : Mask16) (kinds : Byte),
    (r.hitBy (.selector fires kinds) = true ↔
      ((∃ f, r.fireZone = .one f ∧ fires.getLsbD f = true) ∨ (r.fireZone = .all ∧ fires ≠ 0)) ∧
      kinds.getLsbD r.kind.code = true) ∧
    r.hitBy (.selector 0 kinds) = false ∧ targetMalformed (.selector fires kinds) = false ∧ r.hitBy (.selector fires 0) = false ∧
    ((∀ f, r.fireZone = .one f → f ≤ 15) → r.hitBy (.selector 0xFFFF 0x3F) = true) ∧
    ∀ logical, ({ r with logical := logical } : Zone).hitBy (.selector fires kinds) = r.hitBy (.selector fires kinds)

/-- R90 and R91: the exponent, fraction and shift of a level code, the mantissas rounded from powers of two, and the
contribution with its properties. -/
def Obligations.ContributionsRound : Prop :=
  (∀ f, f ≤ 15 → (2 * mantissa f - 1) ^ 16 ≤ 2 ^ 256 * 2 ^ f ∧ 2 ^ 256 * 2 ^ f < (2 * mantissa f + 1) ^ 16) ∧
  (∀ l : Int, -384 ≤ l → l ≤ 32 → ∃ e f k : Int, l = 16 * e + f ∧ 0 ≤ f ∧ f ≤ 15 ∧ -24 ≤ e ∧ e ≤ 2 ∧ k = 15 - e ∧ 13 ≤ k ∧
    k ≤ 39 ∧ ∀ s : Int, scale s l * 2 ^ k.toNat ≤ s * mantissa f.toNat + 2 ^ (k - 1).toNat ∧
      s * mantissa f.toNat + 2 ^ (k - 1).toNat < (scale s l + 1) * 2 ^ k.toNat) ∧
  (∀ s : Int, scale s 0 = s ∧ scale s (-16) = Int.fdiv (s + 1) 2) ∧
  (∀ s l : Int, -8388608 ≤ s → s ≤ 8388607 → -384 ≤ l → l ≤ 32 →
    -33554432 ≤ scale s l ∧ scale s l ≤ 33554428 ∧ (0 < s → 0 ≤ scale s l) ∧ (s < 0 → scale s l ≤ 0)) ∧
  scale (-8388608) 32 = -33554432 ∧ scale 8388607 32 = 33554428

/-- R92: the accumulator is the sum of the contributions, in whatever order they are added; it is 0 for an empty stack, and
each layer adds at most 2^25 in size. A layer contributes its source sample at the sum of its gain, its volume term, D and F, at
most 32, and nothing while HELD, after it was popped HELD, while muted, or below -384. The zone's output is the accumulator,
clamped to 24 bits and counted where it was clamped. -/
def Obligations.AccumulatorIsTheSum : Prop :=
  (∀ (n : Node) (z : Nat),
    (n.stack z = [] → n.accumulate z = 0) ∧
    (∀ order : List Layer, order.Perm (n.stack z) → n.accumulate z = (order.map (n.contributionOf (n.zone z))).sum) ∧
    -(33554432 * ((n.stack z).length : Int)) ≤ n.accumulate z ∧ n.accumulate z ≤ 33554432 * ((n.stack z).length : Int)) ∧
  (∀ (n : Node) (r : Zone) (l : Layer),
    let level := fun (b : Binding) => b.gain + l.duck + l.fade + match (n.classRecord l.cls).volume with
      | .zone => r.vol
      | .floor => max r.vol r.floor
      | .fixed => 0
    (n.binding l.binding = none → n.contributionOf r l = 0) ∧
    ∀ b, n.binding l.binding = some b →
      (l.state = .held ∨ l.silent = true ∨ l.duck = -385 ∨ level b < -384 → n.contributionOf r l = 0) ∧
      (l.state ≠ .held → l.silent = false → l.duck ≠ -385 → -384 ≤ level b →
        n.contributionOf r l = scale (n.sourceSample b.source).toInt (min 32 (level b)))) ∧
  ∀ (n : Node) (z : Nat), n.ok = true → z ≤ 15 →
    (∀ l ∈ n.stack z, l.state = .releasing → l.fresh = false → -380 < l.fade) →
    let ramped := n.zoneRamps z
    let sum := ramped.accumulate z
    ((n.computeZone z).zone z).out = BitVec.ofInt 24 (max (-8388608) (min 8388607 sum)) ∧
    ((n.computeZone z).zone z).clips = (if -8388608 ≤ sum ∧ sum ≤ 8388607 then (n.zone z).clips
      else min 65535 ((n.zone z).clips + 1)) ∧
    (n.computeZone z).stack z = (n.stack z).map (n.rampLayer z)
end

