-- ==== Sys2Proof/Laws/Fixed.lean ====
section
/-! SUPPORT. What the operations on claims, stacks, bindings, admissions, calls, jobs and alarm channels leave alone: one lemma
per operation. -/

namespace Sys2Proof.Machine

/-- What the operations on stacks, bindings, claims, calls and jobs leave alone: the Ring Interface, the class table, the Alarm
Engine but for its table, channels and call-tone generator, the station table, the flash store and its queue, the inbound
queue, groups and notice destination, the Management Responder, the pins and the model's own fields. -/
structure Fixed where
  ring : Ring
  classes : List ClassRecord
  alarm : Alarm
  stations : List Station
  library : Library
  inbound : List Packet
  groups : BitVec 15
  noticeDest : Nat
  follow : Option Follow
  mgmt : Mgmt
  pins : Pins
  early : List Share
  freeCount : Nat

/-- Those parts of a node. -/
def Node.fixed (n : Node) : Fixed where
  ring := n.ring
  classes := n.mixer.classes
  alarm := { n.alarm with table := [], channels := [], callGen := .reset }
  stations := n.calls.stations
  library := n.library
  inbound := n.lane.inbound
  groups := n.lane.groups
  noticeDest := n.lane.noticeDest
  follow := n.lane.follow
  mgmt := n.mgmt
  pins := n.pins
  early := n.early
  freeCount := n.freeCount

/-- A fold of an operation that leaves the fields alone leaves them alone. -/
theorem foldl_fixed {α : Type} (f : Node → α → Node) (h : ∀ n a, (f n a).fixed = n.fixed) (l : List α) (n : Node) :
    (l.foldl f n).fixed = n.fixed := by
  induction l generalizing n with
  | nil => rfl
  | cons a l ih => rw [List.foldl_cons, ih, h]

/-! ## Named operations -/

@[simp] theorem Node.setStack_fixed (n : Node) (z : Nat) (st : List Layer) : (Node.setStack n z st).fixed = n.fixed := rfl

@[simp] theorem Node.setBinding_fixed (n : Node) (id : Nat) (b : Option Binding) : (Node.setBinding n id b).fixed = n.fixed :=
  rfl

@[simp] theorem Node.modBinding_fixed (n : Node) (id : Nat) (f : Binding → Binding) :
    (Node.modBinding n id f).fixed = n.fixed := rfl

@[simp] theorem Node.modEntry_fixed (n : Node) (k : Nat) (f : SlotEntry → SlotEntry) : (Node.modEntry n k f).fixed = n.fixed :=
  rfl

@[simp] theorem Node.setReg_fixed (n : Node) (k : Nat) (e : RegEntry) : (Node.setReg n k e).fixed = n.fixed := rfl

@[simp] theorem Node.setWaiting_fixed (n : Node) (l : List Claim) : (Node.setWaiting n l).fixed = n.fixed := rfl

@[simp] theorem Node.modTalk_fixed (n : Node) (i : Nat) (f : TalkRecord → TalkRecord) : (Node.modTalk n i f).fixed = n.fixed :=
  rfl

@[simp] theorem Node.modCall_fixed (n : Node) (r : Nat) (f : CallRecord → CallRecord) : (Node.modCall n r f).fixed = n.fixed :=
  rfl

@[simp] theorem Node.setSendList_fixed (n : Node) (l : List SendEntry) : (Node.setSendList n l).fixed = n.fixed := rfl

@[simp] theorem Node.modPlayer_fixed (n : Node) (p : Nat) (f : Player → Player) : (Node.modPlayer n p f).fixed = n.fixed :=
  rfl

@[simp] theorem Node.modJob_fixed (n : Node) (p : Nat) (f : Job → Job) : (Node.modJob n p f).fixed = n.fixed := rfl

@[simp] theorem Node.modChannel_fixed (n : Node) (a : Nat) (f : Channel → Channel) : (Node.modChannel n a f).fixed = n.fixed :=
  rfl

@[simp] theorem Node.enqueue_fixed (n : Node) (p : Packet) : (Node.enqueue n p).fixed = n.fixed := rfl

@[simp] theorem Node.reserve_fixed (n : Node) : (Node.reserve n).fixed = n.fixed := rfl

@[simp] theorem Node.unreserve_fixed (n : Node) : (Node.unreserve n).fixed = n.fixed := rfl

@[simp] theorem Node.respond_fixed (n : Node) (who : Req) (kind : Nat) (status : Status) (results : List Byte) :
    (Node.respond n who kind status results).fixed = n.fixed := rfl

@[simp] theorem Node.notice_fixed (n : Node) (dest kind : Nat) (payload : List Byte) :
    (Node.notice n dest kind payload).fixed = n.fixed := by
  unfold Node.notice
  repeat' split
  all_goals first | (simp; done) | rfl

@[simp] theorem Node.generalNotice_fixed (n : Node) (kind : Nat) (payload : List Byte) :
    (Node.generalNotice n kind payload).fixed = n.fixed := by unfold Node.generalNotice; split <;> simp

/-! ## Claims -/

@[simp] theorem Node.bumpOrder_fixed (n : Node) : (Node.bumpOrder n).fixed = n.fixed := rfl

@[simp] theorem Node.masterClaim_fixed (n : Node) (u : User) (cls : Nat) : (Node.masterClaim n u cls).1.fixed = n.fixed :=
  by unfold Node.masterClaim; split <;> simp

@[simp] theorem Node.requestClaim_fixed (n : Node) (u : User) (cls : Nat) : (Node.requestClaim n u cls).1.fixed = n.fixed := by
  unfold Node.requestClaim
  repeat' split
  all_goals simp

@[simp] theorem Node.releaseClaim_fixed (n : Node) (u : User) : (Node.releaseClaim n u).fixed = n.fixed := rfl

/-! ## Stacks -/

@[simp] theorem Node.settle_fixed (n : Node) (z : Nat) : (Node.settle n z).fixed = n.fixed := rfl

@[simp] theorem Node.popZone_fixed (n : Node) (z id : Nat) : (Node.popZone n z id).fixed = n.fixed :=
  by unfold Node.popZone; split <;> simp

@[simp] theorem Node.popAll_fixed (n : Node) (id : Nat) : (Node.popAll n id).fixed = n.fixed :=
  by simp [Node.popAll, foldl_fixed]

@[simp] theorem Node.beginEnd_fixed (n : Node) (id : Nat) (why : Ending) : (Node.beginEnd n id why).fixed = n.fixed := rfl

@[simp] theorem Node.popLayers_fixed (n : Node) (id : Option Nat) (owner : Owner) :
    (Node.popLayers n id owner).fixed = n.fixed := by
  unfold Node.popLayers
  repeat' split
  all_goals simp

/-! ## Endings -/

@[simp] theorem Node.sendTied_fixed (n : Node) (r : Nat) (closing : Bool) (p : Packet) :
    (Node.sendTied n r closing p).fixed = n.fixed := rfl

@[simp] theorem Node.sendUntied_fixed (n : Node) (p : Packet) : (Node.sendUntied n p).fixed = n.fixed :=
  by unfold Node.sendUntied; split <;> simp

@[simp] theorem Node.dropTied_fixed (n : Node) (r : Nat) : (Node.dropTied n r).fixed = n.fixed := rfl

@[simp] theorem Node.closingPacket_fixed (n : Node) (r : Nat) (why : Reason) (side : Side) :
    (Node.closingPacket n r why side).fixed = n.fixed := by
  unfold Node.closingPacket
  dsimp only
  repeat' split
  all_goals simp

@[simp] theorem Node.callEndedNotice_fixed (n : Node) (r : Nat) (why : Reason) (side : Side) :
    (Node.callEndedNotice n r why side).fixed = n.fixed := by simp [Node.callEndedNotice]

@[simp] theorem Node.callEnd_fixed (n : Node) (r : Nat) (why : Reason) (side : Side) :
    (Node.callEnd n r why side).fixed = n.fixed := by
  unfold Node.callEnd
  dsimp only
  repeat' split
  all_goals simp

@[simp] theorem Node.playerDone_fixed (n : Node) (p : Nat) (why : JobEnd) : (Node.playerDone n p why).fixed = n.fixed :=
  by simp [Node.playerDone]

@[simp] theorem Node.jobFinish_fixed (n : Node) (p : Nat) : (Node.jobFinish n p).fixed = n.fixed := by simp [Node.jobFinish]

@[simp] theorem Node.jobEnd_fixed (n : Node) (p : Nat) (why : JobEnd) : (Node.jobEnd n p why).fixed = n.fixed := by
  unfold Node.jobEnd
  dsimp only
  repeat' split
  all_goals simp

@[simp] theorem Node.testGate_fixed (n : Node) (p : Nat) : (Node.testGate n p).fixed = n.fixed :=
  by unfold Node.testGate; split <;> simp

@[simp] theorem Node.evictionReport_fixed (n : Node) (id : Nat) : (Node.evictionReport n id).fixed = n.fixed := by
  unfold Node.evictionReport
  repeat' split
  all_goals simp

@[simp] theorem Node.bindingEndedNotice_fixed (n : Node) (id : Nat) (b : Binding) (why : Ending) :
    (Node.bindingEndedNotice n id b why).fixed = n.fixed := by unfold Node.bindingEndedNotice; split <;> simp

@[simp] theorem Node.endReport_fixed (n : Node) (id : Nat) (b : Binding) : (Node.endReport n id b).fixed = n.fixed := by
  unfold Node.endReport
  dsimp only
  repeat' split
  all_goals simp

@[simp] theorem Node.bindingEnd_fixed (n : Node) (id : Nat) : (Node.bindingEnd n id).fixed = n.fixed := by
  unfold Node.bindingEnd
  dsimp only
  repeat' split
  · rfl
  all_goals
    rw [Node.endReport_fixed, Node.bindingEndedNotice_fixed]
    rfl

@[simp] theorem Node.removeLayer_fixed (n : Node) (z id : Nat) : (Node.removeLayer n z id).fixed = n.fixed := by
  unfold Node.removeLayer
  dsimp only
  repeat' split
  all_goals simp

@[simp] theorem Node.evictLayer_fixed (n : Node) (z id : Nat) : (Node.evictLayer n z id).fixed = n.fixed :=
  by simp [Node.evictLayer]

/-! ## Admissions -/

theorem Node.cutLowest_fixed (n : Node) (z : Nat) (m : Node) (h : Node.cutLowest n z = some m) : m.fixed = n.fixed := by
  unfold Node.cutLowest at h
  simp only [Option.map_eq_some_iff] at h
  obtain ⟨l, -, rfl⟩ := h
  simp

theorem Node.makeRoom_fixed (n : Node) (z c : Nat) (alarm : Bool) (m : Node) (h : Node.makeRoom n z c alarm = some m) : m.fixed = n.fixed := by
  unfold Node.makeRoom at h
  repeat' split at h
  all_goals first
    | exact Node.cutLowest_fixed n z m h
    | (obtain rfl := Option.some.inj h; simp)
    | simp at h

@[simp] theorem Node.joinZone_fixed (n : Node) (z id : Nat) (b : Binding) : (Node.joinZone n z id b).fixed = n.fixed := by
  unfold Node.joinZone
  repeat' split
  all_goals first | (simp; done) | rfl

@[simp] theorem Node.insertInto_fixed (n : Node) (z id c : Nat) : (Node.insertInto n z id c).fixed = n.fixed := rfl

@[simp] theorem Node.admit_fixed (n : Node) (z : Nat) (b : Binding) (id : Option Nat) (alarm : Bool) :
    (Node.tryAdmit n z b id alarm).node.fixed = n.fixed := by
  unfold Node.tryAdmit
  split
  · rfl
  split
  · rfl
  split
  · rfl
  · rename_i n1 h1
    have hk := Node.makeRoom_fixed n z b.cls alarm n1 h1
    split <;> simp [hk]

@[simp] theorem Pushed.next_fixed (b : Binding) (acc : Pushed) (z : Nat) : (Pushed.next b acc z).node.fixed = acc.node.fixed :=
  by simp [Pushed.next]

theorem foldl_pushed_fixed (b : Binding) (l : List Nat) (p : Pushed) : (l.foldl (Pushed.next b) p).node.fixed = p.node.fixed := by
  induction l generalizing p with
  | nil => rfl
  | cons a l ih => simp [ih]

@[simp] theorem Node.push_fixed (n : Node) (zones : List Nat) (b : Binding) : (Node.push n zones b).node.fixed = n.fixed :=
  by simp [Node.push, foldl_pushed_fixed]

@[simp] theorem Node.pushOne_fixed (n : Node) (z : Nat) (b : Binding) : (Node.pushOne n z b).1.fixed = n.fixed :=
  by unfold Node.pushOne; split <;> simp

@[simp] theorem Node.reinstate_fixed (n : Node) (z id : Nat) : (Node.reinstate n z id).fixed = n.fixed := rfl

@[simp] theorem Node.clearEnding_fixed (n : Node) (id : Nat) : (Node.clearEnding n id).fixed = n.fixed := rfl

@[simp] theorem Node.addZone_fixed (n : Node) (a z : Nat) : (Node.addZone n a z).fixed = n.fixed := by
  unfold Node.addZone
  dsimp only
  repeat' split
  all_goals simp

@[simp] theorem Node.removeZone_fixed (n : Node) (a z : Nat) : (Node.removeZone n a z).fixed = n.fixed := by
  unfold Node.removeZone
  dsimp only
  repeat' split
  all_goals simp

@[simp] theorem Node.changeZone_fixed (changed : List Nat) (n : Node) (z : Nat) :
    (Node.changeZone changed n z).fixed = n.fixed := by simp [Node.changeZone, Node.settle]

@[simp] theorem Node.classChange_fixed (n : Node) (changed : List Nat) : (Node.classChange n changed).fixed = n.fixed :=
  by simp [Node.classChange, foldl_fixed]

/-! ## Claim outcomes -/

@[simp] theorem Node.talkOutcome_fixed (n : Node) (i : Nat) (o : ClaimOutcome) : (Node.talkOutcome n i o).fixed = n.fixed := by
  unfold Node.talkOutcome
  dsimp only
  repeat' split
  all_goals simp

@[simp] theorem Node.callPush_fixed (n : Node) (r : Nat) (source : Source) : (Node.callPush n r source).1.fixed = n.fixed :=
  by simp [Node.callPush]

@[simp] theorem Node.carryOutAnswer_fixed (n : Node) (r : Nat) : (Node.carryOutAnswer n r).fixed = n.fixed := by
  unfold Node.carryOutAnswer
  dsimp only
  repeat' split
  all_goals simp

@[simp] theorem Node.answerCall_fixed (n : Node) (r : Nat) : (Node.answerCall n r).fixed = n.fixed :=
  by unfold Node.answerCall; split <;> simp

@[simp] theorem Node.callerConfirmed_fixed (n : Node) (r k : Nat) : (Node.callerConfirmed n r k).fixed = n.fixed := rfl

@[simp] theorem Node.calleeConfirmed_fixed (n : Node) (r k : Nat) : (Node.calleeConfirmed n r k).fixed = n.fixed := by
  unfold Node.calleeConfirmed
  dsimp only
  repeat' split
  all_goals simp

@[simp] theorem Node.callOutcome_fixed (n : Node) (r : Nat) (o : ClaimOutcome) : (Node.callOutcome n r o).fixed = n.fixed := by
  unfold Node.callOutcome
  dsimp only
  repeat' split
  all_goals simp

@[simp] theorem Node.jobOutcome_fixed (n : Node) (p : Nat) (o : ClaimOutcome) : (Node.jobOutcome n p o).fixed = n.fixed := by
  unfold Node.jobOutcome
  dsimp only
  repeat' split
  all_goals simp

@[simp] theorem Node.tell_fixed (n : Node) (u : User) (o : ClaimOutcome) : (Node.tell n u o).fixed = n.fixed :=
  by unfold Node.tell; split <;> simp

@[simp] theorem Node.claimFor_fixed (n : Node) (u : User) (cls : Nat) : (Node.claimFor n u cls).fixed = n.fixed := by
  have h := Node.requestClaim_fixed n u cls
  unfold Node.claimFor
  split
  · rename_i n1 o e
    rw [e] at h
    rw [Node.tell_fixed, ← h]
  · rename_i n1 e
    rw [e] at h
    exact h

theorem fixed_slots (n : Node) (a : SlotCtl) : ({ n with slots := a } : Node).fixed = n.fixed := rfl

@[simp] theorem Node.failClaim_fixed (n : Node) (u : User) : (Node.failClaim n u).fixed = n.fixed := by
  unfold Node.failClaim
  dsimp only
  rw [Node.tell_fixed, fixed_slots]

@[simp] theorem Node.failAllClaims_fixed (n : Node) : (Node.failAllClaims n).fixed = n.fixed :=
  by simp [Node.failAllClaims, foldl_fixed]

/-! ## Alarm Engine -/

@[simp] theorem Node.voiceStop_fixed (n : Node) : (Node.voiceStop n).fixed = n.fixed := rfl

@[simp] theorem Node.leaveVoice_fixed (n : Node) (a : Nat) : (Node.leaveVoice n a).fixed = n.fixed :=
  by unfold Node.leaveVoice; split <;> simp

@[simp] theorem Node.keepSignal_fixed (n : Node) (x : Nat × Nat) : (Node.keepSignal n x).fixed = n.fixed :=
  by unfold Node.keepSignal; split <;> simp

@[simp] theorem Node.takeSignal_fixed (n : Node) (a : Nat) (x : Nat × Nat) : (Node.takeSignal n a x).fixed = n.fixed :=
  by simp [Node.takeSignal]

@[simp] theorem Node.placeSignal_fixed (top : List (Nat × Nat)) (n : Node) (x : Nat × Nat) :
    (Node.placeSignal top n x).fixed = n.fixed := by
  unfold Node.placeSignal
  repeat' split
  all_goals simp

@[simp] theorem Node.giveUpSignal_fixed (top : List (Nat × Nat)) (n : Node) (a : Nat) :
    (Node.giveUpSignal top n a).fixed = n.fixed := by
  unfold Node.giveUpSignal
  dsimp only
  repeat' split
  all_goals simp

@[simp] theorem Node.assignSignals_fixed (n : Node) (top : List (Nat × Nat)) : (Node.assignSignals n top).fixed = n.fixed :=
  by simp [Node.assignSignals, foldl_fixed]

@[simp] theorem Node.placeZone_fixed (needed : List (Nat × Nat)) (n : Node) (z : Nat) :
    (Node.placeZone needed n z).fixed = n.fixed := by
  unfold Node.placeZone
  dsimp only
  repeat' split
  all_goals simp

theorem fixed_table (n : Node) (t : List FireEntry) :
    ({ n with alarm := { n.alarm with table := t } } : Node).fixed = n.fixed := rfl

@[simp] theorem Node.recomputeAlarm_fixed (n : Node) : (Node.recomputeAlarm n).fixed = n.fixed := by
  unfold Node.recomputeAlarm
  dsimp only
  rw [foldl_fixed _ (Node.placeZone_fixed _), Node.assignSignals_fixed, fixed_table]

end Sys2Proof.Machine
end

