-- ==== Sys2Proof/Laws/Kept.lean ====
section
/-! SUPPORT. What every operation leaves alone (Safety.lean, `Node.kept`): one lemma per operation, so that a proof cites it
instead of unfolding the operation. The operations that write one of those fields have no lemma here. -/

namespace Sys2Proof.Machine

/-- A fold of an operation that leaves the fields alone leaves them alone. -/
theorem foldl_kept {α : Type} (f : Node → α → Node) (h : ∀ n a, (f n a).kept = n.kept) (l : List α) (n : Node) :
    (l.foldl f n).kept = n.kept := by
  induction l generalizing n with
  | nil => rfl
  | cons a l ih => rw [List.foldl_cons, ih, h]

/-! ## Named operations -/

/-- A new Alarm Engine with as many contacts and channels. -/
theorem kept_alarm (n : Node) (a : Alarm) (hc : a.contacts.length = n.alarm.contacts.length)
    (hh : a.channels.length = n.alarm.channels.length) : ({ n with alarm := a } : Node).kept = n.kept := by
  simp only [Node.kept, Node.lengths, hc, hh]

/-- A new Slot Controller with as many entries. -/
theorem kept_slots (n : Node) (a : SlotCtl) (ht : a.table.length = n.slots.table.length)
    (hr : a.register.length = n.slots.register.length) (hk : a.talks.length = n.slots.talks.length) :
    ({ n with slots := a } : Node).kept = n.kept := by
  simp only [Node.kept, Node.lengths, ht, hr, hk]

/-- An update of a zone record that leaves its settings alone. -/
theorem Node.modZone_kept (n : Node) (z : Nat) (f : Zone → Zone) (h : ∀ r, (f r).settings = r.settings) :
    (n.modZone z f).kept = n.kept := by
  have e : (n.mixer.zones.modify z f).map Zone.settings = n.mixer.zones.map Zone.settings := by
    generalize n.mixer.zones = l
    induction l generalizing z with
    | nil => cases z <;> rfl
    | cons r l ih => cases z <;> simp [h, ih]
  simp only [Node.kept, Node.modZone, Node.lengths, e, List.length_modify]

@[simp] theorem Node.setStack_kept (n : Node) (z : Nat) (st : List Layer) : (Node.setStack n z st).kept = n.kept :=
  Node.modZone_kept n z _ fun _ => rfl

@[simp] theorem Node.setBinding_kept (n : Node) (id : Nat) (b : Option Binding) : (Node.setBinding n id b).kept = n.kept :=
  by simp [Node.setBinding, Node.kept, Node.lengths]

@[simp] theorem Node.modBinding_kept (n : Node) (id : Nat) (f : Binding → Binding) : (Node.modBinding n id f).kept = n.kept :=
  by simp [Node.modBinding, Node.kept, Node.lengths]

@[simp] theorem Node.modEntry_kept (n : Node) (k : Nat) (f : SlotEntry → SlotEntry) : (Node.modEntry n k f).kept = n.kept :=
  by simp [Node.modEntry, Node.kept, Node.lengths]

@[simp] theorem Node.setReg_kept (n : Node) (k : Nat) (e : RegEntry) : (Node.setReg n k e).kept = n.kept :=
  by simp [Node.setReg, Node.kept, Node.lengths]

@[simp] theorem Node.setWaiting_kept (n : Node) (l : List Claim) : (Node.setWaiting n l).kept = n.kept := rfl

@[simp] theorem Node.modTalk_kept (n : Node) (i : Nat) (f : TalkRecord → TalkRecord) : (Node.modTalk n i f).kept = n.kept :=
  by simp [Node.modTalk, Node.kept, Node.lengths]

@[simp] theorem Node.modCall_kept (n : Node) (r : Nat) (f : CallRecord → CallRecord) : (Node.modCall n r f).kept = n.kept :=
  by simp [Node.modCall, Node.kept, Node.lengths]

@[simp] theorem Node.setSendList_kept (n : Node) (l : List SendEntry) : (Node.setSendList n l).kept = n.kept := rfl

@[simp] theorem Node.modPlayer_kept (n : Node) (p : Nat) (f : Player → Player) : (Node.modPlayer n p f).kept = n.kept :=
  by simp [Node.modPlayer, Node.kept, Node.lengths]

@[simp] theorem Node.modJob_kept (n : Node) (p : Nat) (f : Job → Job) : (Node.modJob n p f).kept = n.kept :=
  by simp [Node.modJob]

@[simp] theorem Node.modChannel_kept (n : Node) (a : Nat) (f : Channel → Channel) : (Node.modChannel n a f).kept = n.kept :=
  by simp [Node.modChannel, Node.kept, Node.lengths]

@[simp] theorem Node.modContact_kept (n : Node) (k : Nat) (f : Contact → Contact) : (Node.modContact n k f).kept = n.kept :=
  by simp [Node.modContact, Node.kept, Node.lengths]

@[simp] theorem Node.mark_kept (n : Node) (sh : Share) : (Node.mark n sh).kept = n.kept := rfl

@[simp] theorem Node.enqueue_kept (n : Node) (p : Packet) : (Node.enqueue n p).kept = n.kept := rfl

@[simp] theorem Node.reserve_kept (n : Node) : (Node.reserve n).kept = n.kept := rfl

@[simp] theorem Node.unreserve_kept (n : Node) : (Node.unreserve n).kept = n.kept := rfl

@[simp] theorem Node.respond_kept (n : Node) (who : Req) (kind : Nat) (status : Status) (results : List Byte) :
    (Node.respond n who kind status results).kept = n.kept := rfl

@[simp] theorem Node.notice_kept (n : Node) (dest kind : Nat) (payload : List Byte) :
    (Node.notice n dest kind payload).kept = n.kept := by
  unfold Node.notice
  repeat' split
  all_goals first | (simp; done) | rfl

@[simp] theorem Node.generalNotice_kept (n : Node) (kind : Nat) (payload : List Byte) :
    (Node.generalNotice n kind payload).kept = n.kept := by unfold Node.generalNotice; split <;> simp

/-! ## Claims -/

@[simp] theorem Node.bumpOrder_kept (n : Node) : (Node.bumpOrder n).kept = n.kept := rfl

@[simp] theorem Node.masterClaim_kept (n : Node) (u : User) (cls : Nat) : (Node.masterClaim n u cls).1.kept = n.kept :=
  by unfold Node.masterClaim; split <;> simp

@[simp] theorem Node.requestClaim_kept (n : Node) (u : User) (cls : Nat) : (Node.requestClaim n u cls).1.kept = n.kept := by
  unfold Node.requestClaim
  repeat' split
  all_goals simp

@[simp] theorem Node.releaseClaim_kept (n : Node) (u : User) : (Node.releaseClaim n u).kept = n.kept :=
  by unfold Node.releaseClaim; split <;> simp [Node.kept, Node.lengths]

/-! ## Stacks -/

@[simp] theorem Node.settle_kept (n : Node) (z : Nat) : (Node.settle n z).kept = n.kept := Node.setStack_kept _ _ _

@[simp] theorem Node.popZone_kept (n : Node) (z id : Nat) : (Node.popZone n z id).kept = n.kept :=
  by unfold Node.popZone; split <;> simp

@[simp] theorem Node.popAll_kept (n : Node) (id : Nat) : (Node.popAll n id).kept = n.kept :=
  by simp [Node.popAll, foldl_kept]

@[simp] theorem Node.beginEnd_kept (n : Node) (id : Nat) (why : Ending) : (Node.beginEnd n id why).kept = n.kept :=
  by simp [Node.beginEnd]

@[simp] theorem Node.popLayers_kept (n : Node) (id : Option Nat) (owner : Owner) : (Node.popLayers n id owner).kept = n.kept := by
  unfold Node.popLayers
  repeat' split
  all_goals simp

/-! ## Endings -/

@[simp] theorem Node.sendTied_kept (n : Node) (r : Nat) (closing : Bool) (p : Packet) :
    (Node.sendTied n r closing p).kept = n.kept := rfl

@[simp] theorem Node.sendUntied_kept (n : Node) (p : Packet) : (Node.sendUntied n p).kept = n.kept :=
  by unfold Node.sendUntied; split <;> simp

@[simp] theorem Node.dropTied_kept (n : Node) (r : Nat) : (Node.dropTied n r).kept = n.kept := rfl

@[simp] theorem Node.closingPacket_kept (n : Node) (r : Nat) (why : Reason) (side : Side) :
    (Node.closingPacket n r why side).kept = n.kept := by
  unfold Node.closingPacket
  dsimp only
  repeat' split
  all_goals simp

@[simp] theorem Node.callEndedNotice_kept (n : Node) (r : Nat) (why : Reason) (side : Side) :
    (Node.callEndedNotice n r why side).kept = n.kept := by simp [Node.callEndedNotice]

@[simp] theorem Node.callEnd_kept (n : Node) (r : Nat) (why : Reason) (side : Side) :
    (Node.callEnd n r why side).kept = n.kept := by
  unfold Node.callEnd
  dsimp only
  repeat' split
  all_goals simp

@[simp] theorem Node.playerDone_kept (n : Node) (p : Nat) (why : JobEnd) : (Node.playerDone n p why).kept = n.kept :=
  by simp [Node.playerDone]

@[simp] theorem Node.jobFinish_kept (n : Node) (p : Nat) : (Node.jobFinish n p).kept = n.kept := by simp [Node.jobFinish]

@[simp] theorem Node.jobEnd_kept (n : Node) (p : Nat) (why : JobEnd) : (Node.jobEnd n p why).kept = n.kept := by
  unfold Node.jobEnd
  dsimp only
  repeat' split
  all_goals simp

@[simp] theorem Node.testGate_kept (n : Node) (p : Nat) : (Node.testGate n p).kept = n.kept :=
  by unfold Node.testGate; split <;> simp

@[simp] theorem Node.evictionReport_kept (n : Node) (id : Nat) : (Node.evictionReport n id).kept = n.kept := by
  unfold Node.evictionReport
  repeat' split
  all_goals simp

@[simp] theorem Node.bindingEndedNotice_kept (n : Node) (id : Nat) (b : Binding) (why : Ending) :
    (Node.bindingEndedNotice n id b why).kept = n.kept := by unfold Node.bindingEndedNotice; split <;> simp

@[simp] theorem Node.endReport_kept (n : Node) (id : Nat) (b : Binding) : (Node.endReport n id b).kept = n.kept := by
  unfold Node.endReport
  dsimp only
  repeat' split
  all_goals simp

@[simp] theorem Node.bindingEnd_kept (n : Node) (id : Nat) : (Node.bindingEnd n id).kept = n.kept := by
  unfold Node.bindingEnd
  dsimp only
  repeat' split
  · rfl
  · rw [Node.endReport_kept, Node.bindingEndedNotice_kept]
    exact (kept_alarm (n.setBinding id none) _ rfl rfl).trans (Node.setBinding_kept _ _ _)
  · rw [Node.endReport_kept, Node.bindingEndedNotice_kept, Node.setBinding_kept]

@[simp] theorem Node.removeLayer_kept (n : Node) (z id : Nat) : (Node.removeLayer n z id).kept = n.kept := by
  unfold Node.removeLayer
  dsimp only
  repeat' split
  all_goals simp

@[simp] theorem Node.evictLayer_kept (n : Node) (z id : Nat) : (Node.evictLayer n z id).kept = n.kept :=
  by simp [Node.evictLayer]

/-! ## Admissions -/

theorem Node.cutLowest_kept (n : Node) (z : Nat) (m : Node) (h : Node.cutLowest n z = some m) : m.kept = n.kept := by
  unfold Node.cutLowest at h
  simp only [Option.map_eq_some_iff] at h
  obtain ⟨l, -, rfl⟩ := h
  simp

theorem Node.makeRoom_kept (n : Node) (z c : Nat) (alarm : Bool) (m : Node) (h : Node.makeRoom n z c alarm = some m) : m.kept = n.kept := by
  unfold Node.makeRoom at h
  repeat' split at h
  all_goals first
    | exact Node.cutLowest_kept n z m h
    | (obtain rfl := Option.some.inj h; simp)
    | simp at h

@[simp] theorem Node.joinZone_kept (n : Node) (z id : Nat) (b : Binding) : (Node.joinZone n z id b).kept = n.kept := by
  unfold Node.joinZone
  dsimp only
  repeat' split
  · exact Node.modBinding_kept _ _ _
  · rw [Node.setBinding_kept]
    exact kept_alarm n _ rfl rfl
  · exact Node.setBinding_kept _ _ _

@[simp] theorem Node.insertInto_kept (n : Node) (z id c : Nat) : (Node.insertInto n z id c).kept = n.kept :=
  by simp [Node.insertInto]

@[simp] theorem Node.admit_kept (n : Node) (z : Nat) (b : Binding) (id : Option Nat) (alarm : Bool) :
    (Node.tryAdmit n z b id alarm).node.kept = n.kept := by
  unfold Node.tryAdmit
  split
  · rfl
  split
  · rfl
  split
  · rfl
  · rename_i n1 h1
    have hk := Node.makeRoom_kept n z b.cls alarm n1 h1
    split <;> simp [hk]

@[simp] theorem Pushed.next_kept (b : Binding) (acc : Pushed) (z : Nat) : (Pushed.next b acc z).node.kept = acc.node.kept :=
  by simp [Pushed.next]

theorem foldl_pushed_kept (b : Binding) (l : List Nat) (p : Pushed) : (l.foldl (Pushed.next b) p).node.kept = p.node.kept := by
  induction l generalizing p with
  | nil => rfl
  | cons a l ih => simp [ih]

@[simp] theorem Node.push_kept (n : Node) (zones : List Nat) (b : Binding) : (Node.push n zones b).node.kept = n.kept :=
  by simp [Node.push, foldl_pushed_kept]

@[simp] theorem Node.pushOne_kept (n : Node) (z : Nat) (b : Binding) : (Node.pushOne n z b).1.kept = n.kept :=
  by unfold Node.pushOne; split <;> simp

@[simp] theorem Node.reinstate_kept (n : Node) (z id : Nat) : (Node.reinstate n z id).kept = n.kept :=
  by simp [Node.reinstate]

@[simp] theorem Node.clearEnding_kept (n : Node) (id : Nat) : (Node.clearEnding n id).kept = n.kept :=
  by simp [Node.clearEnding]

@[simp] theorem Node.addZone_kept (n : Node) (a z : Nat) : (Node.addZone n a z).kept = n.kept := by
  unfold Node.addZone
  dsimp only
  repeat' split
  all_goals simp

@[simp] theorem Node.removeZone_kept (n : Node) (a z : Nat) : (Node.removeZone n a z).kept = n.kept := by
  unfold Node.removeZone
  dsimp only
  repeat' split
  all_goals simp

@[simp] theorem Node.changeZone_kept (changed : List Nat) (n : Node) (z : Nat) : (Node.changeZone changed n z).kept = n.kept :=
  by simp [Node.changeZone]

@[simp] theorem Node.classChange_kept (n : Node) (changed : List Nat) : (Node.classChange n changed).kept = n.kept :=
  by simp [Node.classChange, foldl_kept]

@[simp] theorem Node.setClass_kept (n : Node) (c : Nat) (r : ClassRecord) : (Node.setClass n c r).kept = n.kept :=
  by simp [Node.setClass, Node.kept, Node.lengths]

/-! ## Claim outcomes -/

@[simp] theorem Node.talkOutcome_kept (n : Node) (i : Nat) (o : ClaimOutcome) : (Node.talkOutcome n i o).kept = n.kept := by
  unfold Node.talkOutcome
  dsimp only
  repeat' split
  all_goals simp

@[simp] theorem Node.callPush_kept (n : Node) (r : Nat) (source : Source) : (Node.callPush n r source).1.kept = n.kept :=
  by simp [Node.callPush]

@[simp] theorem Node.carryOutAnswer_kept (n : Node) (r : Nat) : (Node.carryOutAnswer n r).kept = n.kept := by
  unfold Node.carryOutAnswer
  dsimp only
  repeat' split
  all_goals simp

@[simp] theorem Node.answerCall_kept (n : Node) (r : Nat) : (Node.answerCall n r).kept = n.kept :=
  by unfold Node.answerCall; split <;> simp

@[simp] theorem Node.callerConfirmed_kept (n : Node) (r k : Nat) : (Node.callerConfirmed n r k).kept = n.kept :=
  by simp [Node.callerConfirmed]

@[simp] theorem Node.calleeConfirmed_kept (n : Node) (r k : Nat) : (Node.calleeConfirmed n r k).kept = n.kept := by
  unfold Node.calleeConfirmed
  dsimp only
  repeat' split
  all_goals simp

@[simp] theorem Node.callOutcome_kept (n : Node) (r : Nat) (o : ClaimOutcome) : (Node.callOutcome n r o).kept = n.kept := by
  unfold Node.callOutcome
  dsimp only
  repeat' split
  all_goals simp

@[simp] theorem Node.jobOutcome_kept (n : Node) (p : Nat) (o : ClaimOutcome) : (Node.jobOutcome n p o).kept = n.kept := by
  unfold Node.jobOutcome
  dsimp only
  repeat' split
  all_goals simp

@[simp] theorem Node.tell_kept (n : Node) (u : User) (o : ClaimOutcome) : (Node.tell n u o).kept = n.kept :=
  by unfold Node.tell; split <;> simp

@[simp] theorem Node.claimFor_kept (n : Node) (u : User) (cls : Nat) : (Node.claimFor n u cls).kept = n.kept := by
  have h := Node.requestClaim_kept n u cls
  unfold Node.claimFor
  split
  · rename_i n1 o e
    rw [e] at h
    rw [Node.tell_kept, ← h]
  · rename_i n1 e
    rw [e] at h
    exact h

@[simp] theorem Node.failClaim_kept (n : Node) (u : User) : (Node.failClaim n u).kept = n.kept := by
  unfold Node.failClaim
  dsimp only
  rw [Node.tell_kept]
  exact kept_slots n _ (by simp) rfl rfl

@[simp] theorem Node.failAllClaims_kept (n : Node) : (Node.failAllClaims n).kept = n.kept :=
  by simp [Node.failAllClaims, foldl_kept]

/-! ## Alarm Engine -/

@[simp] theorem Node.changeEvent_kept (n : Node) (e : ChangeEntry) : (Node.changeEvent n e).kept = n.kept := by
  unfold Node.changeEvent
  dsimp only
  rw [Node.generalNotice_kept]
  exact kept_alarm n _ rfl rfl

@[simp] theorem Node.voiceStop_kept (n : Node) : (Node.voiceStop n).kept = n.kept := by simp [Node.voiceStop]

@[simp] theorem Node.leaveVoice_kept (n : Node) (a : Nat) : (Node.leaveVoice n a).kept = n.kept :=
  by unfold Node.leaveVoice; split <;> simp

@[simp] theorem Node.keepSignal_kept (n : Node) (x : Nat × Nat) : (Node.keepSignal n x).kept = n.kept :=
  by unfold Node.keepSignal; split <;> simp

@[simp] theorem Node.takeSignal_kept (n : Node) (a : Nat) (x : Nat × Nat) : (Node.takeSignal n a x).kept = n.kept :=
  by simp [Node.takeSignal]

@[simp] theorem Node.placeSignal_kept (top : List (Nat × Nat)) (n : Node) (x : Nat × Nat) :
    (Node.placeSignal top n x).kept = n.kept := by
  unfold Node.placeSignal
  repeat' split
  all_goals simp

@[simp] theorem Node.giveUpSignal_kept (top : List (Nat × Nat)) (n : Node) (a : Nat) :
    (Node.giveUpSignal top n a).kept = n.kept := by
  unfold Node.giveUpSignal
  dsimp only
  repeat' split
  all_goals simp

@[simp] theorem Node.assignSignals_kept (n : Node) (top : List (Nat × Nat)) : (Node.assignSignals n top).kept = n.kept :=
  by simp [Node.assignSignals, foldl_kept]

@[simp] theorem Node.placeZone_kept (needed : List (Nat × Nat)) (n : Node) (z : Nat) :
    (Node.placeZone needed n z).kept = n.kept := by
  unfold Node.placeZone
  dsimp only
  repeat' split
  all_goals simp

@[simp] theorem Node.recomputeAlarm_kept (n : Node) : (Node.recomputeAlarm n).kept = n.kept :=
  (foldl_kept _ (Node.placeZone_kept _) _ _).trans (Node.assignSignals_kept _ _)

/-! ## Images -/

@[simp] theorem Node.setHighClasses_kept (n : Node) (cs : List ClassRecord) : (Node.setHighClasses n cs).kept = n.kept :=
  by simp [Node.setHighClasses, Node.kept, Node.lengths]

/-! ## Flash queue -/

@[simp] theorem Node.setOps_kept (n : Node) (ops : List FlashOp) : (Node.setOps n ops).kept = n.kept := rfl

@[simp] theorem Node.finishOp_kept (n : Node) (op : FlashOp) (status : Status) (results : List Byte) :
    (Node.finishOp n op status results).kept = n.kept := rfl

@[simp] theorem Node.reloadContact_kept (n : Node) (x : Contact × Nat) : (Node.reloadContact n x).kept = n.kept := by
  unfold Node.reloadContact
  dsimp only
  repeat' split
  all_goals simp

@[simp] theorem Node.setTables_kept (n : Node) (sector : SignalSector) : (Node.setTables n sector).kept = n.kept := rfl

@[simp] theorem Node.reloadGens_kept (n : Node) : (Node.reloadGens n).kept = n.kept :=
  by simp [Node.reloadGens, Node.kept, Node.lengths]

@[simp] theorem Node.deliverSector_kept (n : Node) (sector : SignalSector) : (Node.deliverSector n sector).kept = n.kept := by
  unfold Node.deliverSector
  dsimp only
  rw [Node.recomputeAlarm_kept, Node.reloadGens_kept, foldl_kept _ Node.reloadContact_kept, Node.setTables_kept,
    Node.classChange_kept, Node.setHighClasses_kept]

@[simp] theorem Node.reloadAtHead_kept (n : Node) (op : FlashOp) : (Node.reloadAtHead n op).kept = n.kept := by
  unfold Node.reloadAtHead
  repeat' split
  all_goals simp only [Node.finishOp_kept, Node.deliverSector_kept]

@[simp] theorem Node.startHead_kept (n : Node) (op : FlashOp) (phase : FlashPhase) (data : List Byte) :
    (Node.startHead n op phase data).kept = n.kept := rfl

@[simp] theorem Node.considerHeads_kept (fuel : Nat) (n : Node) : (Node.considerHeads fuel n).kept = n.kept := by
  induction fuel generalizing n with
  | zero => rfl
  | succ fuel ih =>
    unfold Node.considerHeads
    repeat' split
    all_goals simp only [ih, Node.finishOp_kept, Node.startHead_kept, Node.reloadAtHead_kept]

@[simp] theorem Node.considerHead_kept (n : Node) : (Node.considerHead n).kept = n.kept := by simp [Node.considerHead]

@[simp] theorem Node.enqueueOp_kept (n : Node) (op : FlashOp) : (Node.enqueueOp n op).kept = n.kept :=
  by simp [Node.enqueueOp]

@[simp] theorem Node.alarmEvent_kept (n : Node) : (Node.alarmEvent n).kept = n.kept := by simp [Node.alarmEvent]

@[simp] theorem Node.changeAndRecompute_kept (n : Node) (e : ChangeEntry) : (Node.changeAndRecompute n e).kept = n.kept :=
  by simp [Node.changeAndRecompute]

/-! ## Player Unit -/

@[simp] theorem Node.deliverBatch_kept (n : Node) (p : Nat) (stalled : Nat → Bool) :
    (Node.deliverBatch n p stalled).kept = n.kept := by
  unfold Node.deliverBatch
  dsimp only
  repeat' split
  all_goals simp

@[simp] theorem Node.deliverFirst_kept (n : Node) (p : Nat) : (Node.deliverFirst n p).kept = n.kept :=
  by simp [Node.deliverFirst]

@[simp] theorem Node.deliverFrame_kept (n : Node) (p : Nat) : (Node.deliverFrame n p).kept = n.kept :=
  by simp [Node.deliverFrame]

@[simp] theorem Node.playerTick_kept (n : Node) (p : Nat) : (Node.playerTick n p).kept = n.kept := by simp [Node.playerTick]

@[simp] theorem Node.passEnd_kept (n : Node) (p : Nat) : (Node.passEnd n p).kept = n.kept := by
  unfold Node.passEnd
  dsimp only
  repeat' split
  all_goals simp

@[simp] theorem Node.openJob_kept (n : Node) (who : Req) (a : PlayArgs) (p : Nat) (e : Entry) :
    (Node.openJob n who a p e).kept = n.kept := by simp [Node.openJob]

@[simp] theorem Node.pushJob_kept (n : Node) (p : Nat) (a : PlayArgs) : (Node.pushJob n p a).node.kept = n.kept :=
  by unfold Node.pushJob; split <;> simp

@[simp] theorem Node.gateJob_kept (n : Node) (p : Nat) (a : PlayArgs) : (Node.gateJob n p a).kept = n.kept :=
  by unfold Node.gateJob; split <;> simp

@[simp] theorem Node.playNow_kept (n : Node) (who : Req) (a : PlayArgs) : (Node.playNow n who a).kept = n.kept := by
  unfold Node.playNow
  dsimp only
  repeat' split
  all_goals simp

@[simp] theorem Node.stopNow_kept (n : Node) (who : Req) (p : Nat) : (Node.stopNow n who p).kept = n.kept := by
  unfold Node.stopNow
  repeat' split
  all_goals simp

@[simp] theorem Node.setWaits_kept (n : Node) (l : List PlayWait) : (Node.setWaits n l).kept = n.kept := rfl

@[simp] theorem Node.takePlay_kept (n : Node) (who : Req) (a : PlayArgs) : (Node.takePlay n who a).kept = n.kept :=
  by unfold Node.takePlay; split <;> simp

@[simp] theorem Node.takeStop_kept (n : Node) (who : Req) (p : Nat) : (Node.takeStop n who p).kept = n.kept :=
  by unfold Node.takeStop; split <;> simp

@[simp] theorem Node.resumeWait_kept (n : Node) (x : PlayWait) : (Node.resumeWait n x).kept = n.kept :=
  by unfold Node.resumeWait; split <;> simp

@[simp] theorem Node.resumeWaits_kept (n : Node) : (Node.resumeWaits n).kept = n.kept :=
  by simp [Node.resumeWaits, foldl_kept]

@[simp] theorem Node.preempt_kept (n : Node) : (Node.preempt n).kept = n.kept := by unfold Node.preempt; split <;> simp

@[simp] theorem Node.voiceBegin_kept (n : Node) (a : Nat) (e : Entry) : (Node.voiceBegin n a e).kept = n.kept :=
  by simp [Node.voiceBegin]

@[simp] theorem Node.periodEnd_kept (n : Node) (a : Nat) : (Node.periodEnd n a).kept = n.kept :=
  by unfold Node.periodEnd; split <;> simp

@[simp] theorem Node.voiceEnd_kept (n : Node) : (Node.voiceEnd n).kept = n.kept := by unfold Node.voiceEnd; split <;> simp

@[simp] theorem Node.playerEnd_kept (n : Node) (p : Nat) : (Node.playerEnd n p).kept = n.kept := by
  unfold Node.playerEnd
  repeat' split
  all_goals simp

/-! ## Flash commands -/

@[simp] theorem Node.answerRead_kept (n : Node) (w : ReadWait) : (Node.answerRead n w).kept = n.kept := rfl

@[simp] theorem Node.setReadWaits_kept (n : Node) (l : List ReadWait) : (Node.setReadWaits n l).kept = n.kept := rfl

@[simp] theorem Node.serveBank_kept (n : Node) (bank : Nat) : (Node.serveBank n bank).kept = n.kept := by
  unfold Node.serveBank
  dsimp only
  have h := (foldl_kept _ Node.answerRead_kept (n.library.readWaits.filter fun w => bankOf w.sector = bank)
    (n.setReadWaits (n.library.readWaits.filter fun w => bankOf w.sector ≠ bank))).trans (Node.setReadWaits_kept _ _)
  split
  · exact (Node.resumeWaits_kept _).trans h
  · exact h

@[simp] theorem Node.finishWrite_kept (n : Node) (op : FlashOp) : (Node.finishWrite n op).kept = n.kept := by
  unfold Node.finishWrite
  dsimp only
  repeat' split
  all_goals simp

@[simp] theorem Node.admitOp_kept (n : Node) (op : FlashOp) : (Node.admitOp n op).kept = n.kept := by
  unfold Node.admitOp
  repeat' split
  all_goals simp

@[simp] theorem Node.takeErase_kept (n : Node) (who : Req) (sector : Nat) : (Node.takeErase n who sector).kept = n.kept :=
  by unfold Node.takeErase; split <;> simp

@[simp] theorem Node.takeWrite_kept (n : Node) (who : Req) (sector offset : Nat) (data : List Byte) :
    (Node.takeWrite n who sector offset data).kept = n.kept := by
  unfold Node.takeWrite
  repeat' split
  all_goals simp

@[simp] theorem Node.takeRead_kept (n : Node) (who : Req) (sector offset count : Nat) :
    (Node.takeRead n who sector offset count).kept = n.kept := by
  unfold Node.takeRead
  repeat' split
  all_goals simp

@[simp] theorem Node.takeSave_kept (n : Node) (who : Req) : (Node.takeSave n who).kept = n.kept :=
  by unfold Node.takeSave; split <;> simp

@[simp] theorem Node.takeReload_kept (n : Node) (who : Req) : (Node.takeReload n who).kept = n.kept := by
  unfold Node.takeReload
  repeat' split
  all_goals simp

/-! ## Ports and transmitters -/

@[simp] theorem Node.sendEast_kept (n : Node) (source : TxSource) (next : Nat) (feed : Option Frame) :
    (Node.sendEast n source next feed).kept = n.kept := rfl

@[simp] theorem Node.sendWest_kept (n : Node) (source : TxSource) (next : Nat) (feed : Option Frame) :
    (Node.sendWest n source next feed).kept = n.kept := rfl

@[simp] theorem Node.silenceWest_kept (n : Node) : (Node.silenceWest n).kept = n.kept := rfl

@[simp] theorem Node.sendProcessed_kept (n : Node) (p : Port) (f : Option Frame) : (Node.sendProcessed n p f).kept = n.kept :=
  by unfold Node.sendProcessed; split <;> simp

@[simp] theorem Node.repeatEast_kept (n : Node) (source : TxSource) : (Node.repeatEast n source).kept = n.kept := rfl

@[simp] theorem Node.sendGenerated_kept (n : Node) (source : TxSource) (f : Frame) :
    (Node.sendGenerated n source f).kept = n.kept := by
  unfold Node.sendGenerated
  repeat' split
  all_goals simp

/-! ## Slot headers -/

@[simp] theorem SlotWork.write_kept (w : SlotWork) (k : Nat) (f : SlotField) : (SlotWork.write w k f).node.kept = w.node.kept :=
  rfl

@[simp] theorem SlotWork.writeOwned_kept (w : SlotWork) (k : Nat) (f : SlotField) :
    (SlotWork.writeOwned w k f).node.kept = w.node.kept := by unfold SlotWork.writeOwned; split <;> simp

@[simp] theorem Node.slotLost_kept (n : Node) (k : Nat) (c : Claim) : (Node.slotLost n k c).kept = n.kept :=
  by unfold Node.slotLost; split <;> simp

@[simp] theorem SlotWork.claiming_kept (w : SlotWork) (k : Nat) (f : SlotField) (c : Claim) :
    (SlotWork.claiming w k f c).node.kept = w.node.kept := by
  unfold SlotWork.claiming
  repeat' split
  all_goals simp

@[simp] theorem SlotWork.held_kept (w : SlotWork) (k : Nat) (f : SlotField) (c : Claim) :
    (SlotWork.held w k f c).node.kept = w.node.kept := by
  unfold SlotWork.held
  repeat' split
  all_goals simp

@[simp] theorem Node.clearOwed_kept (n : Node) (k : Nat) : (Node.clearOwed n k).kept = n.kept := by simp [Node.clearOwed]

@[simp] theorem SlotWork.owing_kept (w : SlotWork) (k : Nat) (f : SlotField) : (SlotWork.owing w k f).node.kept = w.node.kept := by
  unfold SlotWork.owing
  repeat' split
  all_goals simp

@[simp] theorem SlotWork.entryStep_kept (h : Headers) (w : SlotWork) (k : Nat) :
    (SlotWork.entryStep h w k).node.kept = w.node.kept := by
  unfold SlotWork.entryStep
  dsimp only
  repeat' split
  all_goals simp

@[simp] theorem SlotWork.search_kept (h : Headers) (w : SlotWork) (c : Claim) :
    (SlotWork.search h w c).node.kept = w.node.kept := by unfold SlotWork.search; split <;> simp

theorem foldl_entry_kept (h : Headers) (l : List Nat) (w : SlotWork) :
    (l.foldl (SlotWork.entryStep h) w).node.kept = w.node.kept := by
  induction l generalizing w with
  | nil => rfl
  | cons a l ih => simp [ih]

theorem foldl_search_kept (h : Headers) (l : List Claim) (w : SlotWork) :
    (l.foldl (SlotWork.search h) w).node.kept = w.node.kept := by
  induction l generalizing w with
  | nil => rfl
  | cons a l ih => simp [ih]

@[simp] theorem Node.slotFrame_kept (n : Node) (h : Headers) : (Node.slotFrame n h).node.kept = n.kept :=
  (foldl_search_kept h _ _).trans (foldl_entry_kept h _ _)

@[simp] theorem Node.orphanStep_kept (n : Node) (k : Nat) (fresh : Bool) : (Node.orphanStep n k fresh).kept = n.kept := by
  unfold Node.orphanStep
  dsimp only
  repeat' split
  all_goals simp

@[simp] theorem Node.registerStep_kept (h : Headers) (n : Node) (k : Nat) : (Node.registerStep h n k).kept = n.kept := by
  unfold Node.registerStep
  dsimp only
  repeat' split
  all_goals simp

@[simp] theorem Node.registerFrame_kept (n : Node) (h : Headers) : (Node.registerFrame n h).kept = n.kept :=
  by simp [Node.registerFrame, foldl_kept]

@[simp] theorem Node.autoEndNow_kept (n : Node) (id : Nat) : (Node.autoEndNow n id).kept = n.kept :=
  by simp [Node.autoEndNow]

@[simp] theorem Node.freeRunStep_kept (h : Headers) (n : Node) (id : Nat) : (Node.freeRunStep h n id).kept = n.kept := by
  unfold Node.freeRunStep
  repeat' split
  all_goals simp

@[simp] theorem Node.freeRuns_kept (n : Node) (h : Headers) : (Node.freeRuns n h).kept = n.kept :=
  by simp [Node.freeRuns, foldl_kept]

@[simp] theorem Node.pathStep_kept (h : Headers) (n : Node) (r : Nat) : (Node.pathStep h n r).kept = n.kept := by
  unfold Node.pathStep
  dsimp only
  repeat' split
  all_goals simp

@[simp] theorem Node.pathCounts_kept (n : Node) (h : Headers) : (Node.pathCounts n h).kept = n.kept :=
  by simp [Node.pathCounts, foldl_kept]

/-! ## Control lane -/

@[simp] theorem Node.deliveryOutcome_kept (n : Node) (p : Packet) (d : Delivery) : (Node.deliveryOutcome n p d).kept = n.kept := by
  unfold Node.deliveryOutcome
  dsimp only
  repeat' split
  all_goals simp

@[simp] theorem laneStep_kept (n : Node) (bytes : List Byte) : (laneStep n bytes).node.kept = n.kept := rfl

@[simp] theorem Node.setFollow_kept (n : Node) (f : Option Follow) : (Node.setFollow n f).kept = n.kept := rfl

@[simp] theorem Node.laneMissed_kept (n : Node) (bytes : List Byte) : (Node.laneMissed n bytes).kept = n.kept := rfl

@[simp] theorem Node.laneStart_kept (n : Node) (seq : Nat) (lane : List Byte) :
    (Node.laneStart n seq lane).node.kept = n.kept := rfl

@[simp] theorem Node.popOutbound_kept (n : Node) : (Node.popOutbound n).kept = n.kept := rfl

@[simp] theorem Node.refuse_kept (n : Node) (lane : List Byte) : (Node.refuse n lane).node.kept = n.kept := rfl

@[simp] theorem Node.relayFeed_kept (n : Node) (seq : Nat) (lane : List Byte) (emptied : Bool) :
    (Node.relayFeed n seq lane emptied).kept = n.kept := by
  unfold Node.relayFeed
  dsimp only
  repeat' split
  all_goals rfl

@[simp] theorem Node.relayBreak_kept (n : Node) : (Node.relayBreak n).kept = n.kept := rfl

@[simp] theorem Node.relayEmpty_kept (n : Node) : (Node.relayEmpty n).kept = n.kept := rfl

@[simp] theorem Node.openWindow_kept (n : Node) : (Node.openWindow n).kept = n.kept := rfl

@[simp] theorem Node.generateLane_kept (n : Node) (seq : Nat) : (Node.generateLane n seq).node.kept = n.kept := by
  unfold Node.generateLane
  dsimp only
  repeat' split
  all_goals first | (simp; done) | rfl

/-! ## Start-up -/

@[simp] theorem Node.withLinks_kept (n old : Node) : (Node.withLinks n old).kept = n.kept := rfl

/-! ## Frames -/

@[simp] theorem Node.readWord_kept (n : Node) (w : AlarmWord) : (Node.readWord n w).kept = n.kept := by
  unfold Node.readWord
  repeat' split
  · rfl
  · rfl
  · exact (Node.changeAndRecompute_kept _ _).trans (kept_alarm n _ rfl rfl)
  · exact kept_alarm n _ rfl rfl

@[simp] theorem Node.hearForeign_kept (n : Node) : (Node.hearForeign n).kept = n.kept := rfl

@[simp] theorem Node.dualMaster_kept (n : Node) (outcome : Nat) (f : Frame) : (Node.dualMaster n outcome f).kept = n.kept :=
  by unfold Node.dualMaster; split <;> simp

@[simp] theorem Node.loseHeld_kept (n : Node) (k : Nat) : (Node.loseHeld n k).kept = n.kept :=
  by unfold Node.loseHeld; split <;> simp

@[simp] theorem Node.loseAllHeld_kept (n : Node) : (Node.loseAllHeld n).kept = n.kept :=
  by simp [Node.loseAllHeld, foldl_kept]

@[simp] theorem Node.emptyRegister_kept (n : Node) : (Node.emptyRegister n).kept = n.kept :=
  by simp [Node.emptyRegister, Node.kept, Node.lengths]

@[simp] theorem Node.heldFrame_kept (n : Node) (p : Port) (f : Frame) : (Node.heldFrame n p f).kept = n.kept :=
  by simp [Node.heldFrame]

@[simp] theorem Node.discardFrame_kept (n : Node) (f : Frame) : (Node.discardFrame n f).kept = n.kept := rfl

@[simp] theorem Node.decidePending_kept (n : Node) (c : Claim) : (Node.decidePending n c).kept = n.kept :=
  by unfold Node.decidePending; split <;> simp

/-! ## Generators, contacts, zones -/

@[simp] theorem Node.latchChannel_kept (n : Node) (a : Nat) : (Node.latchChannel n a).kept = n.kept :=
  by simp [Node.latchChannel]

@[simp] theorem Node.channelTick_kept (n : Node) (a : Nat) : (Node.channelTick n a).kept = n.kept :=
  by simp [Node.channelTick]

@[simp] theorem Node.callToneTick_kept (n : Node) : (Node.callToneTick n).kept = n.kept := rfl

@[simp] theorem Node.genTick_kept (n : Node) (x : Gen) : (Node.genTick n x).kept = n.kept :=
  by unfold Node.genTick; split <;> simp

@[simp] theorem Node.contactChange_kept (n : Node) (k : Nat) : (Node.contactChange n k).kept = n.kept :=
  by simp [Node.contactChange]

@[simp] theorem Node.contactRead_kept (n : Node) (k : Nat) : (Node.contactRead n k).kept = n.kept := by
  unfold Node.contactRead
  dsimp only
  repeat' split
  all_goals simp

@[simp] theorem Node.zoneRamps_kept (n : Node) (z : Nat) : (Node.zoneRamps n z).kept = n.kept := by
  refine Node.modZone_kept n z _ fun r => ?_
  unfold Zone.rampVolume
  dsimp only
  repeat' split
  all_goals rfl

theorem Zone.emit_settings (r : Zone) (acc : Int) : (r.emit acc).settings = r.settings := rfl

@[simp] theorem Node.computeZone_kept (n : Node) (z : Nat) : (Node.computeZone n z).kept = n.kept := by
  have h := foldl_kept (fun n id => Node.removeLayer n z id) (fun n id => Node.removeLayer_kept n z id) (n.fadedOut z)
    (n.zoneRamps z)
  unfold Node.computeZone
  dsimp only
  rw [Node.modZone_kept _ z _ fun r => Zone.emit_settings r _]
  exact h.trans (Node.zoneRamps_kept n z)

@[simp] theorem Node.computeZones_kept (n : Node) : (Node.computeZones n).kept = n.kept :=
  by simp [Node.computeZones, foldl_kept]

/-! ## Status outputs -/

@[simp] theorem Node.drive_kept (n : Node) (found : ZoneStacks) : (Node.drive n found).kept = n.kept := rfl

/-! ## Timers -/

@[simp] theorem Node.jobOlder_kept (n : Node) (p : Nat) : (Node.jobOlder n p).kept = n.kept :=
  by unfold Node.jobOlder; split <;> simp

@[simp] theorem Node.quieter_kept (n : Node) : (Node.quieter n).kept = n.kept := by unfold Node.quieter; split <;> rfl

@[simp] theorem Node.restartOlder_kept (n : Node) : (Node.restartOlder n).kept = n.kept :=
  by simp only [Node.restartOlder, Node.kept, Node.lengths, Option.isSome_map]

@[simp] theorem Node.counts_kept (n : Node) : (Node.counts n).kept = n.kept := by
  unfold Node.counts
  dsimp only
  rw [Node.restartOlder_kept, Node.quieter_kept, foldl_kept _ Node.jobOlder_kept]
  simp [Node.kept, Node.lengths, SlotCtl.older]

@[simp] theorem Node.claimTimeouts_kept (n : Node) : (Node.claimTimeouts n).kept = n.kept :=
  by simp [Node.claimTimeouts, foldl_kept]

@[simp] theorem Node.offerTimeout_kept (n : Node) (r : Nat) : (Node.offerTimeout n r).kept = n.kept :=
  by unfold Node.offerTimeout; split <;> simp

@[simp] theorem Node.callLimit_kept (n : Node) (r : Nat) : (Node.callLimit n r).kept = n.kept :=
  by unfold Node.callLimit; split <;> simp

@[simp] theorem Node.callTimeout_kept (n : Node) (r : Nat) : (Node.callTimeout n r).kept = n.kept :=
  by unfold Node.callTimeout; split <;> simp

@[simp] theorem Node.callTimeouts_kept (n : Node) : (Node.callTimeouts n).kept = n.kept :=
  by simp [Node.callTimeouts, foldl_kept]

@[simp] theorem Node.waitStep_kept (n : Node) (p : Nat) : (Node.waitStep n p).kept = n.kept := by
  unfold Node.waitStep
  dsimp only
  repeat' split
  all_goals simp

@[simp] theorem Node.gapStep_kept (n : Node) (p : Nat) : (Node.gapStep n p).kept = n.kept := by
  unfold Node.gapStep
  dsimp only
  repeat' split
  all_goals simp

@[simp] theorem Node.jobStep_kept (n : Node) (p : Nat) : (Node.jobStep n p).kept = n.kept := by simp [Node.jobStep]

@[simp] theorem Node.periodCount_kept (n : Node) (a : Nat) : (Node.periodCount n a).kept = n.kept :=
  by unfold Node.periodCount; split <;> simp

@[simp] theorem Node.periodStep_kept (n : Node) : (Node.periodStep n).kept = n.kept := by simp [Node.periodStep, foldl_kept]

/-! ## Frame time -/

@[simp] theorem Node.readGenerated_kept (n : Node) (h : Headers) : (Node.readGenerated n h).kept = n.kept := by
  unfold Node.readGenerated
  repeat' split
  all_goals simp

@[simp] theorem Node.missed_kept (n : Node) : (Node.missed n).kept = n.kept := rfl

@[simp] theorem Node.westOfSlave_kept (n : Node) : (Node.westOfSlave n).kept = n.kept :=
  by unfold Node.westOfSlave; split <;> simp

@[simp] theorem Node.slaveLinks_kept (n : Node) : (Node.slaveLinks n).kept = n.kept := by
  unfold Node.slaveLinks
  repeat' split
  all_goals simp

@[simp] theorem Node.startingLinks_kept (n : Node) : (Node.startingLinks n).kept = n.kept :=
  by unfold Node.startingLinks; split <;> rfl

@[simp] theorem Node.playerSounds_kept (n : Node) (p : Nat) : (Node.playerSounds n p).kept = n.kept := by
  unfold Node.playerSounds
  split <;> simp

@[simp] theorem Node.sounds_kept (n : Node) : (Node.sounds n).kept = n.kept := by
  unfold Node.sounds
  refine (foldl_kept _ ?_ _ _).trans (foldl_kept _ Node.playerSounds_kept _ _)
  intro n g
  split <;> simp

@[simp] theorem Node.contactStep_kept (n : Node) : (Node.contactStep n).kept = n.kept := by simp [Node.contactStep]

@[simp] theorem Node.timerEvents_kept (n : Node) : (Node.timerEvents n).kept = n.kept := by simp [Node.timerEvents]

@[simp] theorem Node.endArrivals_kept (n : Node) : (Node.endArrivals n).kept = n.kept := rfl

@[simp] theorem Node.endFrame_kept (n : Node) (found : ZoneStacks) : (Node.endFrame n found).kept = n.kept := rfl

/-! ## Commands of the ring -/

@[simp] theorem Node.sendTalk_kept (n : Node) (who : Req) (input cls : Nat) : (Node.sendTalk n who input cls).kept = n.kept := by
  unfold Node.sendTalk
  repeat' split
  all_goals simp

@[simp] theorem Node.unsendTalk_kept (n : Node) (who : Req) (input : Nat) : (Node.unsendTalk n who input).kept = n.kept := by
  unfold Node.unsendTalk
  dsimp only
  repeat' split
  all_goals simp

@[simp] theorem Node.readSlots_kept (n : Node) (who : Req) (view first count : Nat) :
    (Node.readSlots n who view first count).kept = n.kept := by
  unfold Node.readSlots
  repeat' split
  all_goals simp

/-! ## Commands of zones and alarms -/

@[simp] theorem Node.readZone_kept (n : Node) (who : Req) (z : Nat) : (Node.readZone n who z).kept = n.kept := by
  unfold Node.readZone
  split
  · simp
  · exact (Node.respond_kept _ _ _ _ _).trans (Node.modZone_kept _ _ _ fun _ => rfl)

@[simp] theorem Node.bindSource_kept (n : Node) (who : Req) (kind index cls : Nat) (gain : Int) (autoEnd : Bool) (cookie : Nat) (target : Target) : (Node.bindSource n who kind index cls gain autoEnd cookie target).kept = n.kept :=
  by unfold Node.bindSource; split <;> simp

@[simp] theorem Node.unbindId_kept (n : Node) (who : Req) (id : Nat) : (Node.unbindId n who id).kept = n.kept := by
  unfold Node.unbindId
  repeat' split
  all_goals simp

@[simp] theorem Node.readBinding_kept (n : Node) (who : Req) (id : Nat) : (Node.readBinding n who id).kept = n.kept :=
  by unfold Node.readBinding; split <;> simp

@[simp] theorem Node.writeClass_kept (n : Node) (who : Req) (c equal : Nat) (duck : Int) (volume : Nat) (kinds : Byte) (limit : Nat) : (Node.writeClass n who c equal duck volume kinds limit).kept = n.kept := by
  unfold Node.writeClass
  repeat' split
  all_goals simp

@[simp] theorem Node.readClass_kept (n : Node) (who : Req) (c : Nat) : (Node.readClass n who c).kept = n.kept :=
  by unfold Node.readClass; split <;> simp

@[simp] theorem Node.readStack_kept (n : Node) (who : Req) (z : Nat) : (Node.readStack n who z).kept = n.kept :=
  by unfold Node.readStack; split <;> simp

@[simp] theorem Node.setAlarm_kept (n : Node) (who : Req) (code : Nat) (mask : Mask16) :
    (Node.setAlarm n who code mask).kept = n.kept := by
  unfold Node.setAlarm
  repeat' split
  all_goals first | (simp; done) | rfl

@[simp] theorem Node.readAlarm_kept (n : Node) (who : Req) : (Node.readAlarm n who).kept = n.kept := rfl

/-! ## Commands of calls, signalling -/

@[simp] theorem Node.placeCall_kept (n : Node) (who : Req) (i number : Nat) (priority : Bool) :
    (Node.placeCall n who i number priority).kept = n.kept := by
  unfold Node.placeCall
  repeat' split
  all_goals simp

@[simp] theorem Node.answerId_kept (n : Node) (who : Req) (id : Nat) : (Node.answerId n who id).kept = n.kept := by
  unfold Node.answerId
  repeat' split
  all_goals simp

@[simp] theorem Node.hangupId_kept (n : Node) (who : Req) (id : Nat) : (Node.hangupId n who id).kept = n.kept :=
  by unfold Node.hangupId; split <;> simp

@[simp] theorem Node.readCalls_kept (n : Node) (who : Req) (view first count : Nat) :
    (Node.readCalls n who view first count).kept = n.kept := by
  unfold Node.readCalls
  repeat' split
  all_goals simp

@[simp] theorem Node.answerClear_kept (n : Node) (p : Packet) (own : Nat) (why : Reason) :
    (Node.answerClear n p own why).kept = n.kept := by simp [Node.answerClear]

@[simp] theorem Node.answerGone_kept (n : Node) (p : Packet) : (Node.answerGone n p).kept = n.kept :=
  by simp [Node.answerGone]

@[simp] theorem Node.firstRinging_kept (n : Node) (r : Nat) (p : Packet) : (Node.firstRinging n r p).kept = n.kept :=
  by simp [Node.firstRinging]

@[simp] theorem Node.takeRinging_kept (n : Node) (p : Packet) : (Node.takeRinging n p).kept = n.kept := by
  unfold Node.takeRinging
  dsimp only
  repeat' split
  all_goals simp

@[simp] theorem Node.connectCaller_kept (n : Node) (r : Nat) : (Node.connectCaller n r).kept = n.kept := by
  unfold Node.connectCaller
  dsimp only
  repeat' split
  all_goals simp

@[simp] theorem Node.takeAnswered_kept (n : Node) (p : Packet) : (Node.takeAnswered n p).kept = n.kept := by
  unfold Node.takeAnswered
  dsimp only
  repeat' split
  all_goals simp

@[simp] theorem Node.takeReject_kept (n : Node) (p : Packet) : (Node.takeReject n p).kept = n.kept := by
  unfold Node.takeReject
  dsimp only
  repeat' split
  all_goals simp

@[simp] theorem Node.takeClear_kept (n : Node) (p : Packet) : (Node.takeClear n p).kept = n.kept := by
  unfold Node.takeClear
  repeat' split
  all_goals simp

@[simp] theorem Node.rejectOffer_kept (n : Node) (p : Packet) (why : Reason) : (Node.rejectOffer n p why).kept = n.kept :=
  by simp [Node.rejectOffer]

@[simp] theorem Node.acceptOffer_kept (n : Node) (r i : Nat) (p : Packet) : (Node.acceptOffer n r i p).kept = n.kept :=
  by simp [Node.acceptOffer]

@[simp] theorem Node.offerTo_kept (n : Node) (i : Nat) (p : Packet) : (Node.offerTo n i p).kept = n.kept := by
  unfold Node.offerTo
  dsimp only
  repeat' split
  all_goals simp

@[simp] theorem Node.takeOffer_kept (n : Node) (p : Packet) : (Node.takeOffer n p).kept = n.kept := by
  unfold Node.takeOffer
  repeat' split
  all_goals simp

@[simp] theorem Node.handOff_kept (n : Node) : (Node.handOff n).kept = n.kept := by
  unfold Node.handOff
  repeat' split
  all_goals simp

/-! ## Commands of status -/

@[simp] theorem Node.readPlayers_kept (n : Node) (who : Req) : (Node.readPlayers n who).kept = n.kept := rfl

@[simp] theorem Node.identify_kept (n : Node) (who : Req) : (Node.identify n who).kept = n.kept := rfl

@[simp] theorem Node.readStatus_kept (n : Node) (who : Req) : (Node.readStatus n who).kept = n.kept := rfl

@[simp] theorem Node.restartBinding_kept (n : Node) (id : Nat) : (Node.restartBinding n id).kept = n.kept :=
  by unfold Node.restartBinding; split <;> simp

@[simp] theorem Node.restartJob_kept (n : Node) (p : Nat) : (Node.restartJob n p).kept = n.kept :=
  by unfold Node.restartJob; split <;> simp

/-! ## Event rows of slots, zones, alarms -/

@[simp] theorem Node.startedSince_kept (n old : Node) : (Node.startedSince n old).kept = n.kept := by
  unfold Node.startedSince
  refine (foldl_kept _ ?_ _ _).trans ?_
  · simp
  · split <;> simp

@[simp] theorem Node.autoEndRow_kept (n : Node) (id : Nat) : (Node.autoEndRow n id).kept = n.kept :=
  by unfold Node.autoEndRow; split <;> simp

@[simp] theorem Node.periodEndEarly_kept (n : Node) (a : Nat) : (Node.periodEndEarly n a).kept = n.kept :=
  by simp [Node.periodEndEarly]

@[simp] theorem Node.periodsEnd_kept (n : Node) : (Node.periodsEnd n).kept = n.kept := by
  unfold Node.periodsEnd
  dsimp only
  repeat' split
  all_goals simp [foldl_kept]

@[simp] theorem Node.voiceLast_kept (n : Node) : (Node.voiceLast n).kept = n.kept := by unfold Node.voiceLast; split <;> simp

@[simp] theorem Node.voiceEndRow_kept (n : Node) : (Node.voiceEndRow n).kept = n.kept :=
  by unfold Node.voiceEndRow; split <;> simp

/-! ## Event rows of calls -/

@[simp] theorem Node.pathRow_kept (n : Node) (r : Nat) : (Node.pathRow n r).kept = n.kept :=
  by unfold Node.pathRow; split <;> simp

end Sys2Proof.Machine
end

