-- ==== Sys2Proof/Laws/Memory.lean ====
section
/-! SUPPORT. The flash store (R165, R166): every operation keeps the one canonical form, and what each leaves at every
address. -/

namespace Sys2Proof.Machine

/-! ## The canonical form -/

theorem Memory.wfFrom_cons (lo a : Nat) (b : Byte) (m : List Host.Cell) :
    Memory.wfFrom lo ((a, b) :: m) = true ↔
      lo ≤ a ∧ a < Config.flashBytes ∧ b ≠ Config.unlistedByte ∧ Memory.wfFrom (a + 1) m = true := by
  simp [Memory.wfFrom, and_assoc]

theorem Memory.wfFrom_mono {lo lo' : Nat} {m : List Host.Cell} (h : Memory.wfFrom lo m = true) (le : lo' ≤ lo) :
    Memory.wfFrom lo' m = true := by
  cases m with
  | nil => rfl
  | cons c m =>
    rw [Memory.wfFrom_cons] at h ⊢
    exact ⟨by omega, h.2⟩

/-- Below the bound of a canonical store every address reads as unlisted. -/
theorem Memory.read_below {m : List Host.Cell} {lo a : Nat} (h : Memory.wfFrom lo m = true) (lt : a < lo) :
    Memory.read m a = Config.unlistedByte := by
  induction m generalizing lo with
  | nil => rfl
  | cons c m ih =>
    obtain ⟨x, b⟩ := c
    rw [Memory.wfFrom_cons] at h
    rw [Memory.read, if_neg (by omega)]
    exact ih h.2.2.2 (by omega)

theorem Memory.put_wfFrom {m : List Host.Cell} {lo a : Nat} (v : Byte) (h : Memory.wfFrom lo m = true) (le : lo ≤ a)
    (lt : a < Config.flashBytes) : Memory.wfFrom lo (Memory.put m a v) = true := by
  induction m generalizing lo with
  | nil =>
    unfold Memory.put
    split
    · rfl
    · rename_i hv
      exact (Memory.wfFrom_cons _ _ _ _).2 ⟨le, lt, hv, rfl⟩
  | cons c m ih =>
    obtain ⟨x, b⟩ := c
    have h' := (Memory.wfFrom_cons _ _ _ _).1 h
    unfold Memory.put
    by_cases hx : a < x
    · rw [if_pos hx]
      split
      · exact h
      · rename_i hv
        exact (Memory.wfFrom_cons _ _ _ _).2
          ⟨le, lt, hv, (Memory.wfFrom_cons _ _ _ _).2 ⟨by omega, h'.2⟩⟩
    · rw [if_neg hx]
      by_cases he : a = x
      · subst he
        rw [if_pos rfl]
        split
        · exact Memory.wfFrom_mono h'.2.2.2 (by omega)
        · rename_i hv
          exact (Memory.wfFrom_cons _ _ _ _).2 ⟨le, lt, hv, h'.2.2.2⟩
      · rw [if_neg he]
        exact (Memory.wfFrom_cons _ _ _ _).2 ⟨h'.1, h'.2.1, h'.2.2.1, ih h'.2.2.2 (by omega)⟩

/-- A store keeps the canonical form. -/
theorem Memory.store_wf {m : List Host.Cell} (a : Nat) (v : Byte) (h : Memory.wf m = true) :
    Memory.wf (Memory.store m a v) = true := by
  unfold Memory.store
  split
  · rename_i lt
    exact Memory.put_wfFrom v h (Nat.zero_le a) lt
  · exact h

theorem Memory.program_wf {m : List Host.Cell} (a : Nat) (v : Byte) (h : Memory.wf m = true) :
    Memory.wf (Memory.program m a v) = true := Memory.store_wf a _ h

/-- Writing bytes keeps the canonical form. -/
theorem Memory.programAll_wf {m : List Host.Cell} (a : Nat) (vs : List Byte) (h : Memory.wf m = true) :
    Memory.wf (Memory.programAll m a vs) = true := by
  induction vs generalizing m a with
  | nil => exact h
  | cons v vs ih => exact ih (a + 1) (Memory.program_wf a v h)

theorem Memory.filter_wfFrom {m : List Host.Cell} {lo : Nat} (p : Host.Cell → Bool) (h : Memory.wfFrom lo m = true) :
    Memory.wfFrom lo (m.filter p) = true := by
  induction m generalizing lo with
  | nil => rfl
  | cons c m ih =>
    obtain ⟨x, b⟩ := c
    have h' := (Memory.wfFrom_cons _ _ _ _).1 h
    rw [List.filter_cons]
    split
    · exact (Memory.wfFrom_cons _ _ _ _).2 ⟨h'.1, h'.2.1, h'.2.2.1, ih h'.2.2.2⟩
    · exact Memory.wfFrom_mono (ih h'.2.2.2) (by omega)

/-- An erase keeps the canonical form. -/
theorem Memory.eraseSector_wf {m : List Host.Cell} (sector : Nat) (h : Memory.wf m = true) :
    Memory.wf (Memory.eraseSector m sector) = true := Memory.filter_wfFrom _ h

/-- An abandoned erase keeps the canonical form, whatever its free bits. -/
theorem Memory.abandonErase_wf {m : List Host.Cell} (sector use : Nat) (h : Memory.wf m = true) :
    Memory.wf (Memory.abandonErase m sector use) = true := by
  unfold Memory.abandonErase
  generalize List.range 4096 = l
  induction l generalizing m with
  | nil => exact h
  | cons i l ih => exact ih (Memory.store_wf _ _ h)

/-- An abandoned write keeps the canonical form, whatever its free bits. -/
theorem Memory.abandonWrite_wf {m : List Host.Cell} (use i a : Nat) (vs : List Byte) (h : Memory.wf m = true) :
    Memory.wf (Memory.abandonWrite m use i a vs) = true := by
  induction vs generalizing m i a with
  | nil => exact h
  | cons v vs ih =>
    unfold Memory.abandonWrite
    refine ih (i + 1) (a + 1) ?_
    split
    · exact Memory.program_wf a v h
    · exact h

/-! ## What a read gives -/

theorem Memory.read_put_other (m : List Host.Cell) {a x : Nat} (v : Byte) (ne : x ≠ a) :
    Memory.read (Memory.put m a v) x = Memory.read m x := by
  induction m with
  | nil =>
    unfold Memory.put
    split
    · rfl
    · simp [Memory.read, Ne.symm ne]
  | cons c m ih =>
    obtain ⟨y, b⟩ := c
    unfold Memory.put
    repeat' split
    all_goals first
      | (subst_vars; simp [Memory.read, Ne.symm ne]; done)
      | simp_all [Memory.read]

theorem Memory.read_put_self {m : List Host.Cell} {lo a : Nat} (v : Byte) (h : Memory.wfFrom lo m = true) :
    Memory.read (Memory.put m a v) a = v := by
  induction m generalizing lo with
  | nil =>
    unfold Memory.put
    split
    · rename_i hv
      rw [hv]
      rfl
    · simp [Memory.read]
  | cons c m ih =>
    obtain ⟨y, b⟩ := c
    have h' := (Memory.wfFrom_cons _ _ _ _).1 h
    unfold Memory.put
    by_cases hy : a < y
    · rw [if_pos hy]
      split
      · rename_i hv
        rw [hv]
        exact Memory.read_below (m := (y, b) :: m) (lo := y) ((Memory.wfFrom_cons _ _ _ _).2 ⟨Nat.le_refl y, h'.2⟩) hy
      · simp [Memory.read]
    · rw [if_neg hy]
      by_cases he : a = y
      · subst he
        rw [if_pos rfl]
        split
        · rename_i hv
          rw [hv]
          exact Memory.read_below h'.2.2.2 (by omega)
        · simp [Memory.read]
      · rw [if_neg he, Memory.read, if_neg (Ne.symm he)]
        exact ih h'.2.2.2

/-- A store leaves every other address. -/
theorem Memory.read_store_other (m : List Host.Cell) {a x : Nat} (v : Byte) (ne : x ≠ a) :
    Memory.read (Memory.store m a v) x = Memory.read m x := by
  unfold Memory.store
  split
  · exact Memory.read_put_other m v ne
  · rfl

/-- A store inside the flash store is read back. -/
theorem Memory.read_store_self {m : List Host.Cell} {a : Nat} (v : Byte) (h : Memory.wf m = true)
    (lt : a < Config.flashBytes) : Memory.read (Memory.store m a v) a = v := by
  unfold Memory.store
  rw [if_pos lt]
  exact Memory.read_put_self v h

/-- Writing bytes leaves every address below them. -/
theorem Memory.read_programAll_below (m : List Host.Cell) {a x : Nat} (vs : List Byte) (lt : x < a) :
    Memory.read (Memory.programAll m a vs) x = Memory.read m x := by
  induction vs generalizing m a with
  | nil => rfl
  | cons v vs ih =>
    rw [Memory.programAll, ih _ (by omega)]
    exact Memory.read_store_other m _ (by omega)

/-- Writing bytes leaves every address above them. -/
theorem Memory.read_programAll_above (m : List Host.Cell) {a x : Nat} (vs : List Byte) (le : a + vs.length ≤ x) :
    Memory.read (Memory.programAll m a vs) x = Memory.read m x := by
  induction vs generalizing m a with
  | nil => rfl
  | cons v vs ih =>
    rw [List.length_cons] at le
    rw [Memory.programAll, ih _ (by omega)]
    exact Memory.read_store_other m _ (by omega)

/-- Each byte written is the AND of its present value and the value written (R166). -/
theorem Memory.read_programAll_at {m : List Host.Cell} {a i : Nat} (vs : List Byte) (h : Memory.wf m = true)
    (lt : i < vs.length) (inside : a + vs.length ≤ Config.flashBytes) :
    Memory.read (Memory.programAll m a vs) (a + i) = Memory.read m (a + i) &&& vs.getD i 0 := by
  induction vs generalizing m a i with
  | nil => simp at lt
  | cons v vs ih =>
    rw [List.length_cons] at lt inside
    rw [Memory.programAll]
    cases i with
    | zero =>
      rw [Memory.read_programAll_below _ _ (by omega)]
      exact Memory.read_store_self _ h (by omega)
    | succ i =>
      have e : a + (i + 1) = a + 1 + i := by omega
      rw [e, ih (Memory.program_wf a v h) (by omega) (by omega)]
      simp [Memory.program, Memory.read_store_other m _ (show a + 1 + i ≠ a by omega)]

/-- After an erase every byte of the sector reads 0xFF, and every other byte as before (R166). -/
theorem Memory.read_eraseSector (m : List Host.Cell) (sector a : Nat) :
    Memory.read (Memory.eraseSector m sector) a = if a / 4096 = sector then 0xFF else Memory.read m a := by
  unfold Memory.eraseSector
  induction m with
  | nil =>
    simp [Memory.read, Config.unlistedByte]
  | cons c m ih =>
    obtain ⟨x, b⟩ := c
    rw [List.filter_cons]
    by_cases hx : x / 4096 = sector
    · simp only [hx, ne_eq, not_true_eq_false, decide_false, Bool.false_eq_true, if_false, ih]
      by_cases ha : a / 4096 = sector
      · simp [ha]
      · have ne : x ≠ a := by
          rintro rfl
          exact ha hx
        simp [ha, Memory.read, ne]
    · simp only [ne_eq, hx, not_false_eq_true, decide_true, if_true, Memory.read, ih]
      by_cases he : x = a
      · subst he
        simp [hx]
      · simp [he]

end Sys2Proof.Machine
end

