-- ==== Sys2Proof/Laws/Inv.lean ====
section
/-! SUPPORT. The invariant through every operation that writes one of its fields: flash phases, the inbound queue, resets,
loads, frames. An operation of Kept.lean keeps it by `Node.ok_of_kept`. -/

namespace Sys2Proof.Machine

/-- An operation that leaves the kept fields alone keeps the invariant. -/
theorem Node.ok_of_kept {m n : Node} (h : m.kept = n.kept) : m.ok = n.ok := by
  have hf : m.library.flash = n.library.flash := congrArg Kept.flash h
  have hi : m.lane.inbound = n.lane.inbound := congrArg Kept.inbound h
  have hl : m.lengths = n.lengths := congrArg Kept.lengths h
  simp only [Node.ok, Node.flashOk, Node.inboundOk, Node.tablesOk, hf, hi, hl]

/-- The invariant by its three parts. -/
theorem Node.ok_iff (n : Node) :
    n.ok = true ↔ Memory.wf n.library.flash = true ∧ n.lane.inbound.length ≤ 4 ∧ n.tablesOk = true := by
  simp [Node.ok, Node.flashOk, Node.inboundOk, and_assoc]

/-- What the invariant says depends on flash, the inbound queue and the tables' lengths alone. -/
theorem Node.ok_of_eq {m n : Node} (hf : m.library.flash = n.library.flash) (hi : m.lane.inbound = n.lane.inbound)
    (hl : m.lengths = n.lengths) (h : n.ok = true) : m.ok = true := by
  rw [Node.ok_iff, Node.tablesOk] at h ⊢
  rw [hf, hi, hl]
  exact h

/-- Two parts with the same flash, inbound queue and tables' lengths. -/
theorem Node.ok_eq {m n : Node} (hf : m.library.flash = n.library.flash) (hi : m.lane.inbound = n.lane.inbound)
    (hl : m.lengths = n.lengths) : m.ok = n.ok := by
  simp only [Node.ok, Node.flashOk, Node.inboundOk, Node.tablesOk, hf, hi, hl]

/-- The two contacts of the invariant. -/
theorem Node.contacts_length {n : Node} (h : n.tablesOk = true) : n.alarm.contacts.length = 2 := by
  simp only [Node.tablesOk, Node.lengths, decide_eq_true_eq, List.cons.injEq] at h
  exact h.2.2.2.2.2.2.1

/-- The eight stations of the invariant. -/
theorem Node.stations_length {n : Node} (h : n.tablesOk = true) : n.calls.stations.length = 8 := by
  simp only [Node.tablesOk, Node.lengths, decide_eq_true_eq, List.cons.injEq] at h
  exact h.2.2.2.2.2.2.2.2.1

/-- The four status outputs of the invariant. -/
theorem Node.outputs_length {n : Node} (h : n.tablesOk = true) : n.mgmt.outputs.length = 4 := by
  simp only [Node.tablesOk, Node.lengths, decide_eq_true_eq, List.cons.injEq] at h
  exact h.2.2.2.2.2.2.2.2.2.2.2.1

/-- A canonical flash store put in keeps the invariant. -/
theorem Node.setFlash_ok {n : Node} {m : List Host.Cell} (h : n.ok = true) (hm : Memory.wf m = true) :
    (n.setFlash m).ok = true := (Node.ok_iff _).2 ⟨hm, ((Node.ok_iff n).1 h).2⟩

/-- A fold of an operation that keeps the invariant keeps it. -/
theorem foldl_ok {α : Type} (f : Node → α → Node) (h : ∀ n a, n.ok = true → (f n a).ok = true) (l : List α) {n : Node}
    (hn : n.ok = true) : (l.foldl f n).ok = true := by
  induction l generalizing n with
  | nil => exact hn
  | cons a l ih => exact ih (h n a hn)

/-! ## Operations that write a kept field other than flash and the inbound queue -/

theorem Node.storeSamples_ok (n : Node) (h : Headers) : (n.storeSamples h).ok = n.ok := rfl

theorem Node.hearsWaiting_ok (n : Node) : n.hearsWaiting.ok = n.ok := by
  unfold Node.hearsWaiting
  repeat' split
  all_goals rfl

theorem Node.forwardFrame_ok (n : Node) (p : Port) (f : Frame) : (n.forwardFrame p f).ok = n.ok := by
  unfold Node.forwardFrame
  dsimp only
  repeat' split
  all_goals rfl

theorem Node.startingFrame_ok (n : Node) (p : Port) (f : Frame) : (n.startingFrame p f).ok = n.ok := by
  unfold Node.startingFrame Node.hearForeign
  dsimp only
  rw [Node.forwardFrame_ok]
  repeat' split
  all_goals rfl

theorem Node.alarmEvent_ok (n : Node) : n.alarmEvent.ok = n.ok := Node.ok_of_kept (Node.alarmEvent_kept n)

theorem Node.leave_ok (n : Node) : n.leave.ok = n.ok := Node.alarmEvent_ok _

theorem Node.respond_ok (n : Node) (who : Req) (kind : Nat) (st : Status) (r : List Byte) :
    (n.respond who kind st r).ok = n.ok := rfl

theorem Node.yieldRole_ok (n : Node) : n.yieldRole.ok = n.ok := by
  unfold Node.yieldRole
  dsimp only
  rw [Node.ok_of_kept (Node.loseAllHeld_kept _), Node.ok_of_kept (Node.relayEmpty_kept _),
    Node.ok_of_kept (Node.emptyRegister_kept _)]
  rfl

/-- The entries of a resumption (R38) are as many as before. -/
theorem Node.resumeTable_kept (n : Node) :
    ({ n with slots := { n.slots with table := n.slots.table.map SlotEntry.resume } } : Node).kept = n.kept :=
  kept_slots n _ (by simp) rfl rfl

theorem Node.resume_ok (n : Node) : n.resume.ok = n.ok := by
  unfold Node.resume
  dsimp only
  rw [Node.ok_of_kept (foldl_kept _ Node.decidePending_kept _ _),
    Node.ok_of_kept (foldl_kept _ (fun n (c : Claim) => Node.tell_kept n c.user .noSlot) _ _),
    Node.ok_of_kept (Node.resumeTable_kept _), Node.ok_of_kept (Node.loseAllHeld_kept _),
    Node.ok_of_kept (Node.relayEmpty_kept _), Node.ok_of_kept (Node.emptyRegister_kept _)]
  rfl

theorem Node.resumeStep_ok (n : Node) : n.resumeStep.ok = n.ok := by
  unfold Node.resumeStep
  split
  · exact Node.resume_ok n
  · rfl

theorem Node.changeWrap_ok (n : Node) (w : WrapState) : (n.changeWrap w).ok = n.ok := by
  unfold Node.changeWrap
  dsimp only
  split
  · rfl
  · rw [Node.ok_of_kept (Node.generalNotice_kept _ _ _), Node.ok_of_kept (Node.failAllClaims_kept _)]
    split <;> rfl

theorem Node.applyPorts_ok (n : Node) : n.applyPorts.ok = n.ok := Node.changeWrap_ok _ _

theorem Node.portTick_ok (n : Node) (p : Port) (rx : Rx) : (n.portTick p rx).ok = n.ok := by
  unfold Node.portTick Node.turnMode
  dsimp only
  repeat' split
  all_goals rfl

theorem Node.portTickIf_ok (n : Node) (p : Port) (rx : Option Rx) : (n.portTickIf p rx).ok = n.ok := by
  cases rx with
  | none => rfl
  | some rx => exact Node.portTick_ok n p rx

theorem Node.portFrame_ok (n : Node) (west east : Option Rx) : (n.portFrame west east).ok = n.ok := by
  unfold Node.portFrame
  rw [Node.applyPorts_ok, Node.portTickIf_ok, Node.portTickIf_ok]

theorem Node.onePort_ok (n : Node) (p : Port) (rx : Rx) : (n.onePort p rx).ok = n.ok := by
  cases p <;> exact Node.portFrame_ok _ _ _

theorem Node.readPorts_ok (n : Node) (who : Req) : (n.readPorts who).ok = n.ok := rfl

theorem Node.modZone_ok (n : Node) (z : Nat) (f : Zone → Zone) : (n.modZone z f).ok = n.ok := by
  exact Node.ok_eq rfl rfl (by simp [Node.lengths, Node.modZone])

theorem Node.zoneWritten_ok (n : Node) (z logical : Nat) (f : FireZone) (k : ZoneKind) (floor : Int) :
    (n.zoneWritten z logical f k floor).ok = n.ok := by
  unfold Node.zoneWritten
  dsimp only
  split
  · exact Node.modZone_ok _ _ _
  · rw [Node.alarmEvent_ok, Node.modZone_ok]

theorem Node.writeZone_ok (n : Node) (who : Req) (z logical fire kind : Nat) (floor : Int) :
    (n.writeZone who z logical fire kind floor).ok = n.ok := by
  unfold Node.writeZone
  dsimp only
  repeat' split
  all_goals first
    | rfl
    | (rw [Node.respond_ok, Node.zoneWritten_ok])

theorem Node.setVolume_ok (n : Node) (who : Req) (logical : Nat) (level : Int) :
    (n.setVolume who logical level).ok = n.ok := by
  unfold Node.setVolume
  dsimp only
  repeat' split
  · rfl
  · rfl
  · rw [Node.respond_ok]
    exact Node.ok_eq rfl rfl (by simp [Node.lengths])

theorem Node.takeRestart_ok (n : Node) (who : Req) : (n.takeRestart who).ok = n.ok := by
  have h := (foldl_kept _ Node.restartJob_kept [0, 1] ((List.range 64).foldl Node.restartBinding n)).trans
    (foldl_kept _ Node.restartBinding_kept _ _)
  unfold Node.takeRestart
  dsimp only
  rw [← Node.ok_of_kept h]
  generalize [0, 1].foldl Node.restartJob ((List.range 64).foldl Node.restartBinding n) = m
  rfl

/-! ## Flash -/

theorem Node.programOp_ok {n : Node} (op : FlashOp) (h : n.ok = true) : (n.programOp op).ok = true :=
  Node.setFlash_ok h (Memory.programAll_wf _ _ ((Node.ok_iff n).1 h).1)

theorem Node.eraseOp_ok {n : Node} (op : FlashOp) (h : n.ok = true) : (n.eraseOp op).ok = true :=
  Node.setFlash_ok h (Memory.eraseSector_wf _ ((Node.ok_iff n).1 h).1)

theorem Node.completePhase_ok {n : Node} (op : FlashOp) (h : n.ok = true) : (n.completePhase op).ok = true := by
  have he := Node.eraseOp_ok op h
  have hp := Node.programOp_ok op h
  unfold Node.completePhase
  dsimp only
  split
  · exact h
  · rw [Node.ok_of_kept ((Node.setOps_kept _ _).trans ((Node.serveBank_kept _ _).trans (Node.setOps_kept _ _)))]
    exact he
  · rw [Node.ok_of_kept
      ((Node.considerHead_kept _).trans ((Node.serveBank_kept _ _).trans (Node.finishOp_kept _ _ _ _)))]
    exact he
  · rw [Node.ok_of_kept ((Node.considerHead_kept _).trans ((Node.serveBank_kept _ _).trans (Node.finishWrite_kept _ _)))]
    exact hp

theorem Node.abandonPhase_ok {n : Node} (op : FlashOp) (h : n.ok = true) : (n.abandonPhase op).ok = true := by
  have hf := ((Node.ok_iff n).1 h).1
  have he := Memory.abandonErase_wf op.sector n.freeCount hf
  have hw := Memory.abandonWrite_wf n.freeCount 0 (flashAddress op.sector op.offset) op.data hf
  unfold Node.abandonPhase
  generalize Memory.abandonErase n.library.flash op.sector n.freeCount = me at he ⊢
  generalize Memory.abandonWrite n.library.flash n.freeCount 0 (flashAddress op.sector op.offset) op.data = mw at hw ⊢
  split
  · exact h
  · exact Node.setFlash_ok h he
  · exact Node.setFlash_ok h hw

theorem Node.abandonHead_ok {n : Node} (h : n.ok = true) : n.abandonHead.ok = true := by
  unfold Node.abandonHead
  split
  · exact h
  · exact Node.abandonPhase_ok _ h

theorem Node.siglockRead_ok {n : Node} (h : n.ok = true) : n.siglockRead.ok = true := by
  unfold Node.siglockRead
  split
  · exact h
  split
  · rename_i op _ _ _
    rw [Node.ok_of_kept (n := n.abandonPhase op) (by simp)]
    exact Node.abandonPhase_ok op h
  · exact h

theorem Node.phaseTick_ok {n : Node} (h : n.ok = true) : n.phaseTick.ok = true := by
  unfold Node.phaseTick
  repeat' split
  all_goals first
    | exact h
    | exact Node.completePhase_ok _ h

theorem Node.phaseRow_ok {n : Node} (h : n.ok = true) : n.phaseRow.ok = true := by
  unfold Node.phaseRow
  split
  · rename_i op _
    rw [Node.ok_of_kept (n := n.completePhase op) (by simp)]
    exact Node.completePhase_ok op h
  · exact h

theorem Node.siglockRow_ok {n : Node} (h : n.ok = true) : n.siglockRow.ok = true := by
  have h1 : ({ n with pins := { n.pins with siglock := true } } : Node).ok = true := h
  unfold Node.siglockRow
  dsimp only
  split
  · exact h1
  split
  · rw [Node.ok_of_kept ((Node.mark_kept _ _).trans (Node.startedSince_kept _ _))]
    exact Node.siglockRead_ok h1
  · exact h1

theorem Node.flashStep_ok {n : Node} (h : n.ok = true) : n.flashStep.ok = true := by
  unfold Node.flashStep
  repeat' split
  · exact Node.siglockRead_ok h
  · exact h
  · exact Node.phaseTick_ok h

/-! ## Resets and loads -/

theorem SignalSector.builtIn_contacts : SignalSector.builtIn.contacts.length = 2 := rfl

theorem SignalSector.ofBytes_contacts (bs : List Byte) : (SignalSector.ofBytes bs).contacts.length = 2 := by
  simp [SignalSector.ofBytes]

theorem Node.loadSignalSector_ok {n : Node} (h : n.ok = true) : n.loadSignalSector.ok = true := by
  have hc := Node.contacts_length ((Node.ok_iff n).1 h).2.2
  refine Node.ok_of_eq (n := n) ?_ ?_ ?_ h
  · unfold Node.loadSignalSector
    rfl
  · unfold Node.loadSignalSector
    rfl
  · unfold Node.loadSignalSector Node.lengths Node.setHighClasses
    dsimp only
    split <;> simp [hc, SignalSector.builtIn_contacts, SignalSector.ofBytes_contacts]

theorem Node.resetWith_ok {n : Node} (cause : ResetCause) (pins : Pins) (held : Bool) (h : n.ok = true) :
    (n.resetWith cause pins held).ok = true := by
  have hf := ((Node.ok_iff _).1 (Node.abandonHead_ok h)).1
  unfold Node.resetWith
  dsimp only
  exact Node.loadSignalSector_ok ((Node.ok_iff _).2 ⟨hf, Nat.zero_le 4, rfl⟩)

theorem Node.restartReset_ok {n : Node} (h : n.ok = true) : n.restartReset.ok = true := Node.resetWith_ok _ _ _ h

theorem Node.restartLinks_ok {n old : Node} (h : n.ok = true) : (n.restartReset.withLinks old).ok = true := by
  rw [Node.ok_of_kept (Node.withLinks_kept _ _)]
  exact Node.restartReset_ok h

/-- Setting repeated numbers to 0 (R123) leaves as many stations. -/
theorem dropDuplicates_length (seen : List Nat) (l : List Station) : (dropDuplicates seen l).length = l.length := by
  induction l generalizing seen with
  | nil => rfl
  | cons a l ih =>
    unfold dropDuplicates
    split <;> simp [ih]

theorem Node.loadConfig_ok {n : Node} (h : n.ok = true) : n.loadConfig.ok = true := by
  have hs := Node.stations_length ((Node.ok_iff n).1 h).2.2
  have ho := Node.outputs_length ((Node.ok_iff n).1 h).2.2
  refine Node.ok_of_eq (n := n) ?_ ?_ ?_ h
  · unfold Node.loadConfig
    dsimp only
    split <;> rfl
  · unfold Node.loadConfig
    dsimp only
    split <;> rfl
  · unfold Node.loadConfig
    dsimp only
    split
    · simp [Node.lengths, Node.applyConfig, dropDuplicates_length, hs, ho]
    · simp [Node.lengths, Node.applyDefaults, hs, ho, Calls.reset, defaultOutputs]

theorem Node.startStep_ok {n : Node} (h : n.ok = true) : n.startStep.ok = true := by
  unfold Node.startStep
  repeat' split
  · exact Node.loadConfig_ok h
  · exact h
  · exact (Node.leave_ok n).trans h
  · exact h
  · exact h

theorem Node.release_ok {n : Node} (h : n.ok = true) : n.release.ok = true := by
  unfold Node.release
  split
  · exact Node.resetWith_ok _ _ _ h
  · exact h

theorem Node.restartNow_ok {n : Node} (h : n.ok = true) : n.restartNow.ok = true := by
  unfold Node.restartNow
  split
  · exact Node.restartLinks_ok h
  · exact h

theorem Node.restartStep_ok {n : Node} (h : n.ok = true) : n.restartStep.ok = true := by
  unfold Node.restartStep
  split
  · exact Node.restartLinks_ok h
  · exact h

theorem Node.configNow_ok {n : Node} (h : n.ok = true) : n.configNow.ok = true := by
  unfold Node.configNow
  split
  · exact Node.loadConfig_ok h
  · exact h

theorem Node.leaveNow_ok {n : Node} (h : n.ok = true) : n.leaveNow.ok = true := by
  unfold Node.leaveNow
  split
  · exact (Node.leave_ok n).trans h
  · exact h

/-! ## The control lane and frames -/

/-- A packet is copied only where the inbound queue has room (R181). -/
theorem Node.receive_ok {n : Node} (whole : Bool) (all lane : List Byte) (h : n.ok = true) :
    (n.receive whole all lane).node.ok = true := by
  unfold Node.receive
  dsimp only
  repeat' split
  all_goals first
    | exact h
    | (refine (Node.ok_iff _).2 ⟨((Node.ok_iff n).1 h).1, ?_, ((Node.ok_iff n).1 h).2.2⟩
       simp only [laneStep, Node.copyPacket, List.length_append, List.length_cons, List.length_nil]
       omega)

theorem Node.laneEnd_ok {n : Node} (f : Follow) (lane : List Byte) (h : n.ok = true) : (n.laneEnd f lane).node.ok = true := by
  have h1 : (n.setFollow none).ok = true := h
  unfold Node.laneEnd
  dsimp only
  split
  · exact h1
  · exact Node.receive_ok _ _ _ h1
  · exact h1
  · split
    · rename_i p _
      simp only [laneStep]
      rw [Node.ok_of_kept (Node.deliveryOutcome_kept _ _ _)]
      exact h1
    · exact h1
  · split
    · exact h1
    · exact h1

theorem Node.laneFrame_ok {n : Node} (seq : Nat) (lane : List Byte) (h : n.ok = true) :
    (n.laneFrame seq lane).node.ok = true := by
  unfold Node.laneFrame
  repeat' split
  · unfold Node.laneDue
    split
    · exact h
    · exact Node.laneEnd_ok _ _ h
  · rw [Node.ok_of_kept (Node.laneStart_kept _ _ _)]
    exact h
  · exact h
  · rw [Node.ok_of_kept (Node.laneStart_kept _ _ _)]
    exact h
  · exact h

theorem Node.slaveFrame_ok {n : Node} (p : Port) (f : Frame) (h : n.ok = true) : (n.slaveFrame p f).ok = true := by
  unfold Node.slaveFrame
  dsimp only
  split
  · have hl := Node.laneFrame_ok f.seq.toNat f.lane (n := ((((n.storeSamples f.slots).readWord f.word).slotFrame
        f.slots).node.freeRuns f.slots).pathCounts f.slots) (by
      rw [Node.ok_of_kept (n := n.storeSamples f.slots) (by simp)]
      exact h)
    split
    · refine Node.restartLinks_ok ?_
      rw [Node.ok_of_kept (Node.sendProcessed_kept _ _ _)]
      exact hl
    · rw [Node.ok_of_kept (Node.sendProcessed_kept _ _ _)]
      exact hl
  · rw [Node.ok_of_kept (n := n.storeSamples f.slots) (by simp)]
    exact h

theorem Node.relayFrame_ok {n : Node} (p : Port) (f : Frame) (h : n.ok = true) : (n.relayFrame p f).ok = true := by
  unfold Node.relayFrame
  split
  · exact Node.slaveFrame_ok p f h
  · rw [Node.ok_of_kept (Node.heldFrame_kept _ _ _)]
    exact h

theorem Node.returned_ok {n : Node} (f : Frame) (h : n.ok = true) : (n.returned f).ok = true := by
  unfold Node.returned
  dsimp only
  split
  · rw [Node.ok_of_kept (Node.relayFeed_kept _ _ _ _)]
    refine Node.laneFrame_ok _ _ ?_
    rw [Node.storeSamples_ok, Node.ok_of_kept (n := n) (by simp)]
    exact h
  · rw [Node.ok_of_kept (n := n) (by simp)]
    exact h

theorem Node.masterFrame_ok {n : Node} (p : Port) (f : Frame) (h : n.ok = true) : (n.masterFrame p f).ok = true := by
  unfold Node.masterFrame
  repeat' split
  · refine Node.relayFrame_ok _ _ ?_
    rw [Node.yieldRole_ok, Node.ok_of_kept (n := n) (by simp)]
    exact h
  · rw [Node.ok_of_kept (n := n) (by simp)]
    exact h
  · exact Node.returned_ok _ h
  · rw [Node.ok_of_kept (n := n) (by simp)]
    exact h

theorem Node.takeFrame_ok {n : Node} (p : Port) (f : Frame) (h : n.ok = true) : (n.takeFrame p f).ok = true := by
  have h1 : ({ n with ring := n.ring.setArrival p (.taken (n.holdsTime f)) } : Node).ok = true := h
  unfold Node.takeFrame
  dsimp only
  repeat' split
  · rw [Node.forwardFrame_ok]
    exact h1
  · rw [Node.startingFrame_ok]
    exact h1
  · exact Node.masterFrame_ok _ _ h1
  · exact Node.relayFrame_ok _ _ h1
  · exact Node.relayFrame_ok _ _ h1

theorem Node.processWaiting_ok {n : Node} (h : n.ok = true) : n.processWaiting.ok = true := by
  unfold Node.processWaiting
  repeat' split
  all_goals first
    | exact h
    | exact Node.takeFrame_ok _ _ h

theorem Node.returnedWaiting_ok {n : Node} (h : n.ok = true) : n.returnedWaiting.ok = true := by
  unfold Node.returnedWaiting
  repeat' split
  all_goals first
    | exact h
    | exact Node.takeFrame_ok _ _ h

/-! ## The frame time -/

theorem Node.generate_ok {n : Node} (h : n.ok = true) : n.generate.ok = true := by
  unfold Node.generate
  dsimp only
  have hs : ∀ f, (((n.readGenerated (n.ownSlots n.registerHeaders)).generateLane n.generatedSeq).node.sendGenerated
      .generated f).ok = true := fun f => by
    rw [Node.ok_of_kept (n := n) (by simp)]
    exact h
  split
  · exact Node.restartLinks_ok (hs _)
  · exact hs _

theorem Node.ringTick_ok {n : Node} (h : n.ok = true) : n.ringTick.ok = true := by
  unfold Node.ringTick
  dsimp only
  repeat' split
  · rw [Node.ok_of_kept (Node.startingLinks_kept n)]
    exact h
  · refine Node.generate_ok ?_
    rw [Node.hearsWaiting_ok, Node.ok_of_kept (Node.missed_kept n)]
    exact h
  · rw [Node.ok_of_kept (Node.slaveLinks_kept _), Node.hearsWaiting_ok, Node.ok_of_kept (Node.missed_kept n)]
    exact h
  · refine Node.generate_ok ?_
    rw [Node.hearsWaiting_ok]
    exact h
  · rw [Node.ok_of_kept (Node.slaveLinks_kept _), Node.hearsWaiting_ok]
    exact h

theorem Node.runFrame_ok {n : Node} (h : n.ok = true) : n.runFrame.ok = true := by
  have ha : n.counts.resumeStep.sounds.ok = true := by
    rw [Node.ok_of_kept (Node.sounds_kept _), Node.resumeStep_ok, Node.ok_of_kept (Node.counts_kept n)]
    exact h
  have hb : n.counts.resumeStep.sounds.flashStep.periodStep.ringTick.ok = true := by
    refine Node.ringTick_ok ?_
    rw [Node.ok_of_kept (Node.periodStep_kept _)]
    exact Node.flashStep_ok ha
  unfold Node.runFrame
  dsimp only
  split
  · rw [Node.ok_of_kept (Node.endFrame_kept _ _)]
    refine Node.restartStep_ok ?_
    rw [Node.ok_of_kept (n := n.counts.resumeStep.sounds.flashStep.periodStep.ringTick)
      (by simp)]
    exact hb
  · rw [Node.ok_of_kept (Node.endFrame_kept _ _)]
    exact hb

theorem Node.heldTick_ok (n : Node) (pins : Pins) : (n.heldTick pins).ok = n.ok := by
  unfold Node.heldTick
  rw [Node.ok_of_kept (Node.endArrivals_kept _), Node.ok_of_kept (Node.startingLinks_kept _)]
  rfl

theorem Node.frameTick_ok {n : Node} (pins : Pins) (h : n.ok = true) : (n.frameTick pins).ok = true := by
  have h1 : (n.beginFrame pins).startStep.ok = true := Node.startStep_ok h
  unfold Node.frameTick
  dsimp only
  repeat' split
  · exact (Node.heldTick_ok n pins).trans h
  · exact Node.runFrame_ok h1
  · rw [Node.ok_of_kept (Node.endFrame_kept _ _)]
    exact Node.ringTick_ok h1

/-! ## Commands and packets -/

/-- A command whose block keeps the invariant keeps it, taken or not. -/
theorem Node.taken_ok {n : Node} (who : Req) {work : Node → Node} (hw : ∀ m : Node, m.ok = true → (work m).ok = true)
    (h : n.ok = true) : (n.taken who work).ok = true := by
  unfold Node.taken
  repeat' split
  · exact hw _ h
  · exact h
  · exact h

theorem Node.setRingParameters_ok {n : Node} (who : Req) (a b c : Nat) (h : n.ok = true) :
    (n.setRingParameters who a b c).ok = true := by
  unfold Node.setRingParameters
  dsimp only
  rw [Node.ok_of_kept (Node.respond_kept _ _ _ _ _)]
  exact h

theorem Node.writeStation_ok {n : Node} (who : Req) (a b c d : Nat) (e : Bool) (h : n.ok = true) :
    (n.writeStation who a b c d e).ok = true := by
  unfold Node.writeStation
  dsimp only
  repeat' split
  all_goals rw [Node.respond_ok]
  all_goals first
    | exact h
    | (refine Node.ok_of_eq (n := n) rfl rfl ?_ h
       simp [Node.lengths])

theorem Node.setNoticeDestination_ok {n : Node} (who : Req) (a : Nat) (h : n.ok = true) :
    (n.setNoticeDestination who a).ok = true := by
  unfold Node.setNoticeDestination
  split
  all_goals
    rw [Node.ok_of_kept (Node.respond_kept _ _ _ _ _)]
    exact h

theorem Node.setGroups_ok {n : Node} (who : Req) (a : Mask16) (h : n.ok = true) : (n.setGroups who a).ok = true := by
  unfold Node.setGroups
  split
  all_goals
    rw [Node.ok_of_kept (Node.respond_kept _ _ _ _ _)]
    exact h

theorem Node.setOutput_ok {n : Node} (who : Req) (a b : Nat) (c : Bool) (d : Mask16) (e : Byte) (f : Nat) (h : n.ok = true) :
    (n.setOutput who a b c d e f).ok = true := by
  unfold Node.setOutput
  dsimp only
  repeat' split
  all_goals rw [Node.respond_ok]
  all_goals first
    | exact h
    | (refine Node.ok_of_eq (n := n) rfl rfl ?_ h
       simp [Node.lengths])

theorem Node.manage_ok {n : Node} (i : Instr) (h : n.ok = true) : (n.manage i).ok = true := by
  unfold Node.manage
  split
  all_goals first
    | with_reducible exact h
    | (rw [Node.ok_of_kept (n := n) (by simp)]; exact h)
    | with_reducible exact Node.setRingParameters_ok _ _ _ _ h
    | with_reducible exact Node.writeStation_ok _ _ _ _ _ _ h
    | with_reducible exact Node.setNoticeDestination_ok _ _ h
    | with_reducible exact Node.setGroups_ok _ _ h
    | with_reducible exact Node.setOutput_ok _ _ _ _ _ _ _ h
    | with_reducible exact (Node.readPorts_ok _ _).trans h
    | with_reducible exact (Node.writeZone_ok _ _ _ _ _ _ _).trans h
    | with_reducible exact (Node.setVolume_ok _ _ _ _).trans h
    | with_reducible exact (Node.takeRestart_ok _ _).trans h

theorem Node.dispatch_ok {n : Node} (p : Packet) (who : Req) (h : n.ok = true) : (n.dispatch p who).ok = true := by
  unfold Node.dispatch
  split
  · exact Node.manage_ok _ h
  all_goals
    rw [Node.ok_of_kept (Node.respond_kept _ _ _ _ _)]
    exact h

theorem Node.popInbound_ok {n : Node} (h : n.ok = true) : n.popInbound.ok = true := by
  refine (Node.ok_iff _).2 ⟨((Node.ok_iff n).1 h).1, ?_, ((Node.ok_iff n).1 h).2.2⟩
  have h2 := ((Node.ok_iff n).1 h).2.1
  simp only [Node.popInbound, List.length_tail]
  omega

theorem Node.takeHead_ok {n : Node} (h : n.ok = true) : n.takeHead.ok = true := by
  unfold Node.takeHead
  dsimp only
  repeat' split
  all_goals first
    | exact h
    | exact Node.popInbound_ok h
    | exact Node.taken_ok _ (fun m hm => Node.dispatch_ok _ _ hm) (Node.popInbound_ok h)

theorem Node.takeSignalling_ok {n : Node} (kind : Nat) {work : Node → Packet → Node}
    (hw : ∀ (m : Node) (p : Packet), m.ok = true → (work m p).ok = true) (h : n.ok = true) :
    (n.takeSignalling kind work).ok = true := by
  unfold Node.takeSignalling
  repeat' split
  · exact h
  · exact hw _ _ (Node.popInbound_ok h)
  · exact h

end Sys2Proof.Machine
end

