-- ==== Sys2Proof/Laws/Bounds.lean ====
section
/-! SUPPORT. The bounds of stacks and queues (Safety.lean, `Node.within`) through every operation, one lemma each: an operation
keeps them with the same responses owed, a response uses one up, and a command taken owes one. -/

namespace Sys2Proof.Machine

/-! ## The bounds by their parts -/

/-- The bounds with a limit `lim` of its own for the stack of each zone. -/
def Node.fits (n : Node) (lim : Nat → Nat) (owe : Nat) : Prop :=
  (∀ z, (n.stack z).length ≤ lim z) ∧ n.library.ops.length ≤ 4 ∧ n.library.readWaits.length ≤ 4 ∧
    n.heldResponses + owe ≤ n.lane.reservations ∧ n.lane.outbound.length + n.lane.reservations ≤ 8 ∧
    sendListOk n.calls.sendList = true ∧ n.calls.records.length ≤ 8

/-- Six layers in every zone (R67). -/
def six (_z : Nat) : Nat := 6

/-- The bounds by their parts. -/
theorem Node.within_iff (n : Node) (owe : Nat) : n.within owe = true ↔ n.fits six owe := by
  have hz : (∀ r ∈ n.mixer.zones, r.stack.length ≤ 6) ↔ ∀ z, (n.stack z).length ≤ 6 := by
    constructor
    · intro h z
      unfold Node.stack Node.zone
      rw [List.getD_eq_getElem?_getD]
      cases e : n.mixer.zones[z]? with
      | none => simp [Zone.reset]
      | some r => exact h r (List.mem_of_getElem? e)
    · intro h r hr
      obtain ⟨i, hi, rfl⟩ := List.mem_iff_getElem.1 hr
      have := h i
      unfold Node.stack Node.zone at this
      rwa [List.getD_eq_getElem _ _ hi] at this
  simp only [Node.within, Bool.and_eq_true, List.all_eq_true, decide_eq_true_eq, and_assoc, hz, Node.fits, six]
  rfl

/-- A fold of an operation that keeps the bounds keeps them. -/
theorem foldl_fits {α : Type} {lim : Nat → Nat} {owe : Nat} (f : Node → α → Node)
    (h : ∀ n a, n.fits lim owe → (f n a).fits lim owe) (l : List α) (n : Node) (hw : n.fits lim owe) :
    (l.foldl f n).fits lim owe := by
  induction l generalizing n with
  | nil => exact hw
  | cons a l ih => exact ih (f n a) (h n a hw)

/-- Parts that differ in nothing the bounds read. -/
theorem Node.fits_of {m n : Node} {lim : Nat → Nat} {owe : Nat} (hs : ∀ z, (m.stack z).length = (n.stack z).length)
    (hl : m.library = n.library) (ht : m.slots.talks = n.slots.talks) (hp : m.players.waits = n.players.waits)
    (hr : m.lane.reservations = n.lane.reservations) (ho : m.lane.outbound = n.lane.outbound)
    (hc : m.calls.sendList = n.calls.sendList) (hd : m.calls.records.length = n.calls.records.length)
    (hw : n.fits lim owe) : m.fits lim owe := by
  unfold Node.fits Node.heldResponses at hw ⊢
  rw [hl, ht, hp, hr, ho, hc, hd]
  exact ⟨fun z => hs z ▸ hw.1 z, hw.2⟩

/-- More owed is within the same bounds with less owed. -/
theorem Node.fits_mono {n : Node} {lim : Nat → Nat} {a b : Nat} (h : a ≤ b) (hw : n.fits lim b) : n.fits lim a :=
  ⟨hw.1, hw.2.1, hw.2.2.1, by have := hw.2.2.2.1; omega, hw.2.2.2.2⟩

/-- A call record that is not IDLE is one of the 8. -/
theorem Node.live_lt {n : Node} {lim : Nat → Nat} {owe : Nat} (hw : n.fits lim owe) {r : Nat} (h : (n.call r).state ≠ .idle) :
    r < 8 := by
  by_contra hr
  apply h
  have := hw.2.2.2.2.2.2
  unfold Node.call
  rw [List.getD_eq_default _ _ (by omega)]
  rfl

/-- The stack of a zone after another is put in. -/
theorem Node.stack_setStack_len (n : Node) (z y : Nat) (st : List Layer) :
    ((n.setStack z st).stack y).length ≤ if y = z then st.length else (n.stack y).length := by
  unfold Node.setStack Node.modZone Node.stack Node.zone
  simp only [List.getD_eq_getElem?_getD, List.getElem?_modify]
  cases h : n.mixer.zones[y]? with
  | none => simp [Zone.reset]
  | some r =>
    by_cases e : y = z
    · simp [e]
    · simp [e, Ne.symm e]

/-- A stack within its limit put in keeps the bounds. -/
theorem Node.setStack_fits (n : Node) (z : Nat) (st : List Layer) {lim : Nat → Nat} {owe : Nat} (hs : st.length ≤ lim z)
    (hw : n.fits lim owe) : (n.setStack z st).fits lim owe := by
  refine ⟨fun y => (n.stack_setStack_len z y st).trans ?_, hw.2⟩
  split
  · rename_i e; exact e ▸ hs
  · exact hw.1 y

/-- An update of a zone record that leaves its stack alone keeps the bounds. -/
theorem Node.modZone_fits (n : Node) (z : Nat) (f : Zone → Zone) (hf : ∀ r, (f r).stack.length = r.stack.length)
    {lim : Nat → Nat} {owe : Nat} (hw : n.fits lim owe) : (n.modZone z f).fits lim owe := by
  refine ⟨fun y => le_of_eq_of_le ?_ (hw.1 y), hw.2⟩
  unfold Node.modZone Node.stack Node.zone
  simp only [List.getD_eq_getElem?_getD, List.getElem?_modify]
  cases h : n.mixer.zones[y]? with
  | none => simp
  | some r => by_cases e : z = y <;> simp [e, hf]

@[simp] theorem Node.setBinding_fits (n : Node) (id : Nat) (b : Option Binding) {lim : Nat → Nat} {owe : Nat} (hw : n.fits lim owe) :
    (Node.setBinding n id b).fits lim owe := hw

@[simp] theorem Node.modBinding_fits (n : Node) (id : Nat) (f : Binding → Binding) {lim : Nat → Nat} {owe : Nat} (hw : n.fits lim owe) :
    (Node.modBinding n id f).fits lim owe := hw

@[simp] theorem Node.modEntry_fits (n : Node) (k : Nat) (f : SlotEntry → SlotEntry) {lim : Nat → Nat} {owe : Nat} (hw : n.fits lim owe) :
    (Node.modEntry n k f).fits lim owe := hw

@[simp] theorem Node.setReg_fits (n : Node) (k : Nat) (e : RegEntry) {lim : Nat → Nat} {owe : Nat} (hw : n.fits lim owe) :
    (Node.setReg n k e).fits lim owe := hw

@[simp] theorem Node.setWaiting_fits (n : Node) (l : List Claim) {lim : Nat → Nat} {owe : Nat} (hw : n.fits lim owe) :
    (Node.setWaiting n l).fits lim owe := hw

theorem countP_modify_le {α : Type} (p : α → Bool) (f : α → α) (hf : ∀ a, p (f a) = true → p a = true) (l : List α) (i : Nat) :
    (l.modify i f).countP p ≤ l.countP p := by
  induction l generalizing i with
  | nil => cases i <;> simp
  | cons a l ih =>
    cases i with
    | zero =>
      simp only [List.modify_zero_cons, List.countP_cons]
      have := hf a
      split <;> split <;> simp_all
    | succ i => simpa [List.countP_cons] using ih i

/-- A talk record that does not come to CLAIMING keeps the bounds. -/
theorem Node.modTalk_fits (n : Node) (i : Nat) (f : TalkRecord → TalkRecord) {lim : Nat → Nat} {owe : Nat}
    (hf : ∀ t, (f t).state = .claiming → t.state = .claiming) (hw : n.fits lim owe) : (n.modTalk i f).fits lim owe := by
  have := countP_modify_le (fun t : TalkRecord => decide (t.state = .claiming)) f (by simpa using hf) n.slots.talks i
  refine ⟨hw.1, hw.2.1, hw.2.2.1, ?_, hw.2.2.2.2⟩
  have h := hw.2.2.2.1
  simp only [Node.heldResponses, Node.modTalk] at h ⊢
  omega

@[simp] theorem Node.modCall_fits (n : Node) (r : Nat) (f : CallRecord → CallRecord) {lim : Nat → Nat} {owe : Nat}
    (hw : n.fits lim owe) : (n.modCall r f).fits lim owe :=
  Node.fits_of (n := n) (fun _ => rfl) rfl rfl rfl rfl rfl rfl (by simp [Node.modCall]) hw

@[simp] theorem Node.modPlayer_fits (n : Node) (p : Nat) (f : Player → Player) {lim : Nat → Nat} {owe : Nat} (hw : n.fits lim owe) :
    (Node.modPlayer n p f).fits lim owe := hw

@[simp] theorem Node.modJob_fits (n : Node) (p : Nat) (f : Job → Job) {lim : Nat → Nat} {owe : Nat} (hw : n.fits lim owe) :
    (Node.modJob n p f).fits lim owe := hw

@[simp] theorem Node.modChannel_fits (n : Node) (a : Nat) (f : Channel → Channel) {lim : Nat → Nat} {owe : Nat} (hw : n.fits lim owe) :
    (Node.modChannel n a f).fits lim owe := hw

@[simp] theorem Node.modContact_fits (n : Node) (k : Nat) (f : Contact → Contact) {lim : Nat → Nat} {owe : Nat} (hw : n.fits lim owe) :
    (Node.modContact n k f).fits lim owe := hw

@[simp] theorem Node.mark_fits (n : Node) (sh : Share) {lim : Nat → Nat} {owe : Nat} (hw : n.fits lim owe) :
    (Node.mark n sh).fits lim owe := hw

/-- A packet that finds room in the outbound queue keeps the bounds. -/
theorem Node.enqueue_fits (n : Node) (p : Packet) {lim : Nat → Nat} {owe : Nat} (hr : n.load < 8) (hw : n.fits lim owe) :
    (n.enqueue p).fits lim owe := by
  unfold Node.load at hr
  refine ⟨hw.1, hw.2.1, hw.2.2.1, hw.2.2.2.1, ?_, hw.2.2.2.2.2⟩
  simp only [Node.enqueue, List.length_append, List.length_cons, List.length_nil]
  omega

/-- A response owed is enqueued into its reservation. -/
@[simp] theorem Node.respond_fits (n : Node) (who : Req) (kind : Nat) (status : Status) (results : List Byte)
    {lim : Nat → Nat} {owe : Nat} (hw : n.fits lim (owe + 1)) : (n.respond who kind status results).fits lim owe := by
  have h1 := hw.2.2.2.1
  have h2 := hw.2.2.2.2.1
  refine ⟨hw.1, hw.2.1, hw.2.2.1, ?_, ?_, hw.2.2.2.2.2⟩ <;>
    simp only [Node.respond, Node.unreserve, Node.enqueue, Node.heldResponses, List.length_append, List.length_cons,
      List.length_nil] at h1 h2 ⊢ <;> omega

@[simp] theorem Node.notice_fits (n : Node) (dest kind : Nat) (payload : List Byte) {lim : Nat → Nat} {owe : Nat}
    (hw : n.fits lim owe) : (n.notice dest kind payload).fits lim owe := by
  unfold Node.notice
  dsimp only
  split
  · split
    · rename_i h
      exact Node.enqueue_fits _ _ (show n.load < 8 by omega) hw
    · exact hw
  · exact hw

@[simp] theorem Node.generalNotice_fits (n : Node) (kind : Nat) (payload : List Byte) {lim : Nat → Nat} {owe : Nat} (hw : n.fits lim owe) :
    (Node.generalNotice n kind payload).fits lim owe := by unfold Node.generalNotice; split <;> simp [hw]

/-! ## Claims -/

@[simp] theorem Node.bumpOrder_fits (n : Node) {lim : Nat → Nat} {owe : Nat} (hw : n.fits lim owe) :
    (Node.bumpOrder n).fits lim owe := hw

@[simp] theorem Node.masterClaim_fits (n : Node) (u : User) (cls : Nat) {lim : Nat → Nat} {owe : Nat} (hw : n.fits lim owe) :
    (Node.masterClaim n u cls).1.fits lim owe := by unfold Node.masterClaim; split <;> simp (maxDischargeDepth := 40) [hw]

@[simp] theorem Node.requestClaim_fits (n : Node) (u : User) (cls : Nat) {lim : Nat → Nat} {owe : Nat} (hw : n.fits lim owe) :
    (Node.requestClaim n u cls).1.fits lim owe := by
  unfold Node.requestClaim
  repeat' split
  all_goals simp [hw]

@[simp] theorem Node.releaseClaim_fits (n : Node) (u : User) {lim : Nat → Nat} {owe : Nat} (hw : n.fits lim owe) :
    (n.releaseClaim u).fits lim owe := hw

/-! ## Stacks -/

theorem Layer.become_binding (l : Layer) (st : LayerState) : (l.become st).binding = l.binding := by
  unfold Layer.become
  split <;> rfl

theorem applyStates_length (rule : Nat → EqualRule) (seen : List Nat) (st : List Layer) :
    (applyStates rule seen st).length = st.length := by
  induction st generalizing seen with
  | nil => rfl
  | cons l rest ih =>
    unfold applyStates
    repeat' split
    all_goals simp [ih]

/-- The state rule and the duck targets leave as many layers. -/
theorem settleStack_length (classes : Nat → ClassRecord) (st : List Layer) : (settleStack classes st).length = st.length := by
  simp [settleStack, retarget, applyStates_length]

@[simp] theorem Node.settle_fits (n : Node) (z : Nat) {lim : Nat → Nat} {owe : Nat} (hw : n.fits lim owe) :
    (n.settle z).fits lim owe := Node.setStack_fits n z _ ((settleStack_length _ _).trans_le (hw.1 z)) hw

@[simp] theorem Node.popZone_fits (n : Node) (z id : Nat) {lim : Nat → Nat} {owe : Nat} (hw : n.fits lim owe) :
    (n.popZone z id).fits lim owe := by
  unfold Node.popZone
  split
  · exact Node.settle_fits _ _ (Node.setStack_fits n z _ (by simpa using hw.1 z) hw)
  · exact hw

@[simp] theorem Node.popAll_fits (n : Node) (id : Nat) {lim : Nat → Nat} {owe : Nat} (hw : n.fits lim owe) :
    (Node.popAll n id).fits lim owe := foldl_fits _ (fun _ _ h => by simp [h]) _ _ (by simp [hw])

@[simp] theorem Node.beginEnd_fits (n : Node) (id : Nat) (why : Ending) {lim : Nat → Nat} {owe : Nat} (hw : n.fits lim owe) :
    (Node.beginEnd n id why).fits lim owe := hw

@[simp] theorem Node.popLayers_fits (n : Node) (id : Option Nat) (owner : Owner) {lim : Nat → Nat} {owe : Nat} (hw : n.fits lim owe) :
    (Node.popLayers n id owner).fits lim owe := by
  unfold Node.popLayers
  repeat' split
  all_goals simp [hw]

/-! ## Endings -/

theorem sendListOk_iff (l : List SendEntry) :
    sendListOk l = true ↔ (tiedKeys l).Nodup ∧ (∀ x ∈ tiedKeys l, x.1 < 8) ∧ untiedCount l ≤ 8 := by
  simp [sendListOk, and_assoc]

theorem tiedKeys_sublist {l m : List SendEntry} (h : l.Sublist m) : (tiedKeys l).Sublist (tiedKeys m) := h.filterMap _

/-- A part of the send list is within its bounds. -/
theorem sendListOk_sublist {l m : List SendEntry} (h : l.Sublist m) (hm : sendListOk m = true) : sendListOk l = true := by
  rw [sendListOk_iff] at hm ⊢
  exact ⟨hm.1.sublist (tiedKeys_sublist h), fun x hx => hm.2.1 x ((tiedKeys_sublist h).subset hx),
    (h.countP_le).trans hm.2.2⟩

/-- A send list within its bounds put in keeps the bounds. -/
theorem Node.setSendList_fits (n : Node) (l : List SendEntry) {lim : Nat → Nat} {owe : Nat} (hl : sendListOk l = true)
    (hw : n.fits lim owe) : (n.setSendList l).fits lim owe :=
  ⟨hw.1, hw.2.1, hw.2.2.1, hw.2.2.2.1, hw.2.2.2.2.1, hl, hw.2.2.2.2.2.2⟩

/-- A tied packet takes the place of the record's earlier one. -/
theorem Node.sendTied_fits (n : Node) (r : Nat) (closing : Bool) (p : Packet) {lim : Nat → Nat} {owe : Nat} (hr : r < 8)
    (hw : n.fits lim owe) : (n.sendTied r closing p).fits lim owe := by
  refine Node.setSendList_fits n _ ?_ hw
  have h := (sendListOk_iff _).1
    (sendListOk_sublist (List.filter_sublist (p := fun e => !SendEntry.isOf r closing e) (l := n.calls.sendList)) hw.2.2.2.2.2.1)
  have hn : (r, closing) ∉ tiedKeys (n.calls.sendList.filter fun e => !SendEntry.isOf r closing e) := by
    intro hm
    simp only [tiedKeys, List.mem_filterMap, List.mem_filter] at hm
    obtain ⟨e, ⟨-, he⟩, ht⟩ := hm
    cases e' : e.tie with
    | none => simp [e'] at ht
    | some t => simp_all [SendEntry.isOf]
  rw [sendListOk_iff]
  generalize n.calls.sendList.filter (fun e => !SendEntry.isOf r closing e) = l at h hn
  refine ⟨?_, ?_, ?_⟩
  · simp only [tiedKeys, List.filterMap_append, List.filterMap_cons, List.filterMap_nil, Option.map_some] at h hn ⊢
    exact List.nodup_append.2 ⟨h.1, by simp, by
      intro a ha b hb
      simp only [List.mem_singleton] at hb
      rintro rfl
      exact hn (hb ▸ ha)⟩
  · intro x hx
    simp only [tiedKeys, List.filterMap_append, List.filterMap_cons, List.filterMap_nil, Option.map_some, List.mem_append,
      List.mem_singleton] at hx
    rcases hx with hx | rfl
    · exact h.2.1 x hx
    · exact hr
  · simpa [untiedCount, List.countP_append] using h.2.2

@[simp] theorem Node.sendUntied_fits (n : Node) (p : Packet) {lim : Nat → Nat} {owe : Nat} (hw : n.fits lim owe) :
    (n.sendUntied p).fits lim owe := by
  unfold Node.sendUntied
  split
  · rename_i hc
    refine Node.setSendList_fits n _ ?_ hw
    have h := (sendListOk_iff _).1 hw.2.2.2.2.2.1
    rw [sendListOk_iff]
    refine ⟨by simpa [tiedKeys] using h.1, by simpa [tiedKeys] using h.2.1, ?_⟩
    rw [← List.countP_eq_length_filter] at hc
    simp only [untiedCount, List.countP_append, List.countP_cons, List.countP_nil, Option.isNone_none] at hc ⊢
    simp only [if_true]
    omega
  · exact hw

@[simp] theorem Node.dropTied_fits (n : Node) (r : Nat) {lim : Nat → Nat} {owe : Nat} (hw : n.fits lim owe) :
    (n.dropTied r).fits lim owe := Node.setSendList_fits n _ (sendListOk_sublist List.filter_sublist hw.2.2.2.2.2.1) hw

theorem Node.closingPacket_fits (n : Node) (r : Nat) (why : Reason) (side : Side) {lim : Nat → Nat} {owe : Nat} (hr : r < 8)
    (hw : n.fits lim owe) : (n.closingPacket r why side).fits lim owe := by
  have hd := n.dropTied_fits r hw
  unfold Node.closingPacket
  dsimp only
  repeat' split
  all_goals first
    | exact Node.sendTied_fits _ _ _ _ hr hd
    | exact hd

@[simp] theorem Node.callEndedNotice_fits (n : Node) (r : Nat) (why : Reason) (side : Side) {lim : Nat → Nat} {owe : Nat} (hw : n.fits lim owe) :
    (Node.callEndedNotice n r why side).fits lim owe := by simp [Node.callEndedNotice, hw]

@[simp] theorem Node.callEnd_fits (n : Node) (r : Nat) (why : Reason) (side : Side) {lim : Nat → Nat} {owe : Nat}
    (hw : n.fits lim owe) : (n.callEnd r why side).fits lim owe := by
  unfold Node.callEnd
  dsimp only
  split
  · exact hw
  · rename_i h
    have := Node.closingPacket_fits (n.modCall r fun c => { c with clearReason := some why, clearSide := some side }) r why
      side (Node.live_lt hw h) (Node.modCall_fits _ _ _ hw)
    simp (maxDischargeDepth := 40) [this]

@[simp] theorem Node.playerDone_fits (n : Node) (p : Nat) (why : JobEnd) {lim : Nat → Nat} {owe : Nat} (hw : n.fits lim owe) :
    (Node.playerDone n p why).fits lim owe := by simp [Node.playerDone, hw]

@[simp] theorem Node.jobFinish_fits (n : Node) (p : Nat) {lim : Nat → Nat} {owe : Nat} (hw : n.fits lim owe) :
    (Node.jobFinish n p).fits lim owe := by simp (maxDischargeDepth := 40) [Node.jobFinish, hw]

@[simp] theorem Node.jobEnd_fits (n : Node) (p : Nat) (why : JobEnd) {lim : Nat → Nat} {owe : Nat} (hw : n.fits lim owe) :
    (Node.jobEnd n p why).fits lim owe := by
  unfold Node.jobEnd
  dsimp only
  repeat' split
  all_goals simp (maxDischargeDepth := 40) [hw]

@[simp] theorem Node.testGate_fits (n : Node) (p : Nat) {lim : Nat → Nat} {owe : Nat} (hw : n.fits lim owe) :
    (Node.testGate n p).fits lim owe := by unfold Node.testGate; split <;> simp [hw]

@[simp] theorem Node.evictionReport_fits (n : Node) (id : Nat) {lim : Nat → Nat} {owe : Nat} (hw : n.fits lim owe) :
    (Node.evictionReport n id).fits lim owe := by
  unfold Node.evictionReport
  repeat' split
  all_goals simp [hw]

@[simp] theorem Node.bindingEndedNotice_fits (n : Node) (id : Nat) (b : Binding) (why : Ending) {lim : Nat → Nat} {owe : Nat} (hw : n.fits lim owe) :
    (Node.bindingEndedNotice n id b why).fits lim owe := by unfold Node.bindingEndedNotice; split <;> simp [hw]

@[simp] theorem Node.endReport_fits (n : Node) (id : Nat) (b : Binding) {lim : Nat → Nat} {owe : Nat} (hw : n.fits lim owe) :
    (Node.endReport n id b).fits lim owe := by
  unfold Node.endReport
  dsimp only
  repeat' split
  all_goals simp [hw]

theorem fits_alarm (n : Node) (a : Alarm) {lim : Nat → Nat} {owe : Nat} (hw : n.fits lim owe) :
    ({ n with alarm := a } : Node).fits lim owe := hw

@[simp] theorem Node.bindingEnd_fits (n : Node) (id : Nat) {lim : Nat → Nat} {owe : Nat} (hw : n.fits lim owe) :
    (n.bindingEnd id).fits lim owe := by
  unfold Node.bindingEnd
  dsimp only
  split
  · exact hw
  · refine Node.endReport_fits _ _ _ (Node.bindingEndedNotice_fits _ _ _ _ ?_)
    split
    · exact fits_alarm _ _ (Node.setBinding_fits _ _ _ hw)
    · exact Node.setBinding_fits _ _ _ hw

/-- A removed layer leaves its stack without it. -/
theorem Node.dropLayer_fits (n : Node) (z id : Nat) {lim : Nat → Nat} {owe : Nat}
    (hz : ((n.stack z).filter fun l => l.binding ≠ id).length ≤ lim z) (ho : ∀ y, y ≠ z → (n.stack y).length ≤ lim y)
    (hw : n.fits six owe) : (n.removeLayer z id).fits lim owe := by
  have h1 : (n.setStack z ((n.stack z).filter fun l => l.binding ≠ id)).fits lim owe := by
    refine ⟨fun y => (n.stack_setStack_len z y _).trans ?_, hw.2⟩
    split
    · rename_i e; exact e ▸ hz
    · rename_i e; exact ho y e
  have h2 := Node.modBinding_fits _ id (fun b => { b with zones := b.zones &&& ~~~(BitVec.twoPow 16 z) })
    (Node.settle_fits _ z h1)
  unfold Node.removeLayer
  dsimp only
  split
  · exact Node.bindingEnd_fits _ _ h2
  · exact h2

@[simp] theorem Node.removeLayer_fits (n : Node) (z id : Nat) {lim : Nat → Nat} {owe : Nat} (hw : n.fits lim owe) :
    (n.removeLayer z id).fits lim owe := by
  have h2 := Node.modBinding_fits _ id (fun b => { b with zones := b.zones &&& ~~~(BitVec.twoPow 16 z) })
    (Node.settle_fits _ z (Node.setStack_fits n z ((n.stack z).filter fun l => l.binding ≠ id)
      ((List.length_filter_le _ _).trans (hw.1 z)) hw))
  unfold Node.removeLayer
  dsimp only
  split
  · exact Node.bindingEnd_fits _ _ h2
  · exact h2

@[simp] theorem Node.evictLayer_fits (n : Node) (z id : Nat) {lim : Nat → Nat} {owe : Nat} (hw : n.fits lim owe) :
    (Node.evictLayer n z id).fits lim owe := by simp [Node.evictLayer, hw]

/-! ## Admissions -/

/-- One layer more in zone `z` than its limit gives. -/
def roomIn (z y : Nat) : Nat := if y = z then 5 else 6

theorem Node.room_of_length {n : Node} {z owe : Nat} (hz : (n.stack z).length < 6) (hw : n.fits six owe) :
    n.fits (roomIn z) owe := by
  refine ⟨fun y => ?_, hw.2⟩
  unfold roomIn
  split
  · rename_i e; subst e; omega
  · exact hw.1 y

/-- A layer of a stack removed leaves room in its zone. -/
theorem Node.room_of_removed {n : Node} {z owe : Nat} {l : Layer} (hl : l ∈ n.stack z) (hw : n.fits six owe) :
    (n.removeLayer z l.binding).fits (roomIn z) owe := by
  have hz := hw.1 z
  have hlt : ((n.stack z).filter fun x => x.binding ≠ l.binding).length < (n.stack z).length := by
    refine List.length_filter_lt_length_iff_exists.2 ⟨l, hl, by simp⟩
  refine Node.dropLayer_fits n z l.binding ?_ (fun y hy => ?_) hw
  · simp only [roomIn, if_true, six] at hz ⊢
    omega
  · simp only [roomIn, if_neg hy]
    exact hw.1 y

theorem Node.cutLowest_fits {n m : Node} {z owe : Nat} (h : n.cutLowest z = some m) (hw : n.fits six owe) :
    m.fits (roomIn z) owe := by
  unfold Node.cutLowest at h
  simp only [Option.map_eq_some_iff] at h
  obtain ⟨l, hl, rfl⟩ := h
  exact Node.room_of_removed (List.mem_reverse.1 (List.mem_of_find?_eq_some hl)) hw

/-- An admission that finds room finds it within the bounds. -/
theorem Node.makeRoom_fits {n m : Node} {z c owe : Nat} {alarm : Bool} (h : n.makeRoom z c alarm = some m)
    (hw : n.fits six owe) : m.fits (roomIn z) owe := by
  unfold Node.makeRoom at h
  split at h
  · rename_i hz
    obtain rfl := Option.some.inj h
    exact Node.room_of_length hz hw
  rename_i hz
  split at h
  · rename_i hn
    simp [List.getLast?_eq_none_iff.1 hn] at hz
  · rename_i bottom hb
    have hm : bottom ∈ n.stack z := List.mem_of_getLast? hb
    repeat' split at h
    all_goals first
      | exact Node.cutLowest_fits h hw
      | (obtain rfl := Option.some.inj h
         first
          | exact Node.room_of_removed hm hw
          | exact Node.evictionReport_fits _ _ (Node.room_of_removed hm hw))
      | simp at h

@[simp] theorem Node.joinZone_fits (n : Node) (z id : Nat) (b : Binding) {lim : Nat → Nat} {owe : Nat} (hw : n.fits lim owe) :
    (n.joinZone z id b).fits lim owe := by
  unfold Node.joinZone
  dsimp only
  repeat' split
  all_goals exact hw

theorem insertLayer_length (l : Layer) (st : List Layer) : (insertLayer l st).length = st.length + 1 := by
  unfold insertLayer
  have := congrArg List.length (List.takeWhile_append_dropWhile (p := fun x => decide (l.cls ≤ x.cls)) (l := st))
  simp only [List.length_append, List.length_cons] at this ⊢
  omega

/-- A layer inserted where there is room. -/
theorem Node.insertInto_fits (n : Node) (z id c : Nat) {owe : Nat} (hw : n.fits (roomIn z) owe) :
    (n.insertInto z id c).fits six owe := by
  have h1 : (n.setStack z (insertLayer (newLayer id c) (n.stack z))).fits six owe := by
    refine ⟨fun y => (n.stack_setStack_len z y _).trans ?_, hw.2⟩
    have hy := hw.1 y
    unfold roomIn at hy
    split
    · rename_i e
      subst e
      rw [insertLayer_length]
      simp only [if_true, six] at hy ⊢
      omega
    · rename_i e
      rw [if_neg e] at hy
      exact hy
  have h2 := Node.settle_fits _ z h1
  unfold Node.insertInto
  exact Node.setStack_fits _ z _ (by simpa using h2.1 z) h2

@[simp] theorem Node.tryAdmit_fits (n : Node) (z : Nat) (b : Binding) (id : Option Nat) (alarm : Bool) {owe : Nat}
    (hw : n.fits six owe) : (n.tryAdmit z b id alarm).node.fits six owe := by
  unfold Node.tryAdmit
  repeat' split
  · exact hw
  · exact hw
  · exact hw
  · rename_i n1 h1 _ _
    have h := Node.makeRoom_fits h1 hw
    refine ⟨fun y => (h.1 y).trans ?_, h.2⟩
    unfold roomIn six
    split <;> omega
  · rename_i n1 h1 _ k _
    exact Node.insertInto_fits _ _ _ _ (Node.joinZone_fits _ _ _ _ (Node.makeRoom_fits h1 hw))

@[simp] theorem Pushed.next_fits (b : Binding) (acc : Pushed) (z : Nat) {owe : Nat} (hw : acc.node.fits six owe) :
    (Pushed.next b acc z).node.fits six owe := by simp [Pushed.next, hw]

theorem foldl_pushed_fits (b : Binding) (l : List Nat) (p : Pushed) {owe : Nat} (hw : p.node.fits six owe) :
    (l.foldl (Pushed.next b) p).node.fits six owe := by
  induction l generalizing p with
  | nil => exact hw
  | cons a l ih => exact ih _ (Node.tryAdmit_fits _ _ _ _ _ hw)

@[simp] theorem Node.push_fits (n : Node) (zones : List Nat) (b : Binding) {owe : Nat} (hw : n.fits six owe) :
    (n.push zones b).node.fits six owe := foldl_pushed_fits b zones _ hw

@[simp] theorem Node.pushOne_fits (n : Node) (z : Nat) (b : Binding) {owe : Nat} (hw : n.fits six owe) :
    (Node.pushOne n z b).1.fits six owe := by unfold Node.pushOne; split <;> simp [hw]

@[simp] theorem Node.reinstate_fits (n : Node) (z id : Nat) {owe : Nat} (hw : n.fits six owe) :
    (n.reinstate z id).fits six owe := Node.settle_fits _ _ (Node.setStack_fits n z _ (by simpa using hw.1 z) hw)

@[simp] theorem Node.clearEnding_fits (n : Node) (id : Nat) {owe : Nat} (hw : n.fits six owe) :
    (Node.clearEnding n id).fits six owe := hw

@[simp] theorem Node.addZone_fits (n : Node) (a z : Nat) {owe : Nat} (hw : n.fits six owe) :
    (Node.addZone n a z).fits six owe := by
  unfold Node.addZone
  dsimp only
  repeat' split
  all_goals simp [hw]

@[simp] theorem Node.removeZone_fits (n : Node) (a z : Nat) {owe : Nat} (hw : n.fits six owe) :
    (Node.removeZone n a z).fits six owe := by
  unfold Node.removeZone
  dsimp only
  repeat' split
  all_goals simp [hw]

@[simp] theorem Node.changeZone_fits (changed : List Nat) (n : Node) (z : Nat) {owe : Nat} (hw : n.fits six owe) :
    (Node.changeZone changed n z).fits six owe :=
  Node.settle_fits _ _ (Node.setStack_fits n z _ (by simpa using hw.1 z) hw)

@[simp] theorem Node.classChange_fits (n : Node) (changed : List Nat) {owe : Nat} (hw : n.fits six owe) :
    (n.classChange changed).fits six owe :=
  foldl_fits _ (fun _ _ h => Node.evictionReport_fits _ _ h) _ _ (foldl_fits _ (fun _ _ h => Node.changeZone_fits _ _ _ h) _ _ hw)

@[simp] theorem Node.setClass_fits (n : Node) (c : Nat) (r : ClassRecord) {owe : Nat} (hw : n.fits six owe) :
    (Node.setClass n c r).fits six owe := hw

/-! ## Claim outcomes -/

theorem countP_modify_lt {α : Type} (p : α → Bool) (f : α → α) (l : List α) (i : Nat) (d : α) (hd : p d = false)
    (hp : p (l.getD i d) = true) (hf : ∀ a, p (f a) = false) : (l.modify i f).countP p + 1 = l.countP p := by
  induction l generalizing i with
  | nil => simp [hd] at hp
  | cons a l ih =>
    cases i with
    | zero =>
      simp only [List.getD_cons_zero] at hp
      simp [hp, hf]
    | succ i =>
      simp only [List.getD_cons_succ] at hp
      simp only [List.modify_succ_cons, List.countP_cons, ← ih i hp]
      omega

/-- A CLAIMING talk record that comes to another state lets go its held response. -/
theorem Node.modTalk_owes (n : Node) (i : Nat) (f : TalkRecord → TalkRecord) {lim : Nat → Nat} {owe : Nat}
    (hc : (n.talk i).state = .claiming) (hf : ∀ t, (f t).state ≠ .claiming) (hw : n.fits lim owe) :
    (n.modTalk i f).fits lim (owe + 1) := by
  have := countP_modify_lt (fun t : TalkRecord => decide (t.state = .claiming)) f n.slots.talks i .reset rfl
    (by simpa [Node.talk] using hc) (by simpa using hf)
  refine ⟨hw.1, hw.2.1, hw.2.2.1, ?_, hw.2.2.2.2⟩
  have h := hw.2.2.2.1
  simp only [Node.heldResponses, Node.modTalk] at h ⊢
  omega

@[simp] theorem Node.talkOutcome_fits (n : Node) (i : Nat) (o : ClaimOutcome) {lim : Nat → Nat} {owe : Nat}
    (hw : n.fits lim owe) : (n.talkOutcome i o).fits lim owe := by
  unfold Node.talkOutcome
  dsimp only
  repeat' split
  all_goals first
    | exact hw
    | exact Node.respond_fits _ _ _ _ _ (Node.modTalk_owes n i _ (by assumption) (by simp) hw)
    | exact Node.modTalk_fits n i _ (by simp) hw

@[simp] theorem Node.callPush_fits (n : Node) (r : Nat) (source : Source) {owe : Nat} (hw : n.fits six owe) :
    (Node.callPush n r source).1.fits six owe := by simp [Node.callPush, hw]

theorem Node.carryOutAnswer_fits (n : Node) (r : Nat) {owe : Nat} (hr : r < 8) (hw : n.fits six owe) :
    (n.carryOutAnswer r).fits six owe := by
  unfold Node.carryOutAnswer
  dsimp only
  split
  · exact Node.sendTied_fits _ _ _ _ hr (by simp (maxDischargeDepth := 40) [hw])
  · simp (maxDischargeDepth := 40) [hw]

theorem Node.answerCall_fits (n : Node) (r : Nat) {owe : Nat} (hr : r < 8) (hw : n.fits six owe) :
    (n.answerCall r).fits six owe := by
  unfold Node.answerCall
  split
  · exact Node.carryOutAnswer_fits n r hr hw
  · exact Node.modCall_fits _ _ _ hw

theorem Node.callerConfirmed_fits (n : Node) (r k : Nat) {owe : Nat} (hr : r < 8) (hw : n.fits six owe) :
    (n.callerConfirmed r k).fits six owe := Node.sendTied_fits _ _ _ _ hr (Node.modCall_fits _ _ _ hw)

theorem Node.calleeConfirmed_fits (n : Node) (r k : Nat) {owe : Nat} (hr : r < 8) (hw : n.fits six owe) :
    (n.calleeConfirmed r k).fits six owe := by
  have hp := Node.callPush_fits _ r .callTone (Node.modCall_fits n r (fun c => { c with talk := some k }) hw)
  unfold Node.calleeConfirmed
  dsimp only
  generalize (n.modCall r fun c => { c with talk := some k }).callPush r .callTone = pushed at hp ⊢
  split
  · rename_i id _
    have h : ∀ p : Packet, ((pushed.1.modCall r fun c =>
        { c.enter .ringing with tone := some id, outstanding := .ringing }).sendTied r false p).fits six owe := fun p =>
      Node.sendTied_fits _ _ _ _ hr (Node.modCall_fits _ _ _ hp)
    split
    · exact Node.answerCall_fits _ _ hr (h _)
    · exact h _
  · exact Node.callEnd_fits _ _ _ _ hp

@[simp] theorem Node.callOutcome_fits (n : Node) (r : Nat) (o : ClaimOutcome) {owe : Nat} (hw : n.fits six owe) :
    (n.callOutcome r o).fits six owe := by
  unfold Node.callOutcome
  dsimp only
  split
  · split
    · rename_i h
      have hr := Node.live_lt hw (r := r) (by simp [h])
      split
      · exact Node.callerConfirmed_fits _ _ _ hr hw
      · exact Node.calleeConfirmed_fits _ _ _ hr hw
      · exact hw
    · exact hw
  · split <;> simp [hw]
  · simp [hw]

@[simp] theorem Node.jobOutcome_fits (n : Node) (p : Nat) (o : ClaimOutcome) {owe : Nat} (hw : n.fits six owe) :
    (Node.jobOutcome n p o).fits six owe := by
  unfold Node.jobOutcome
  dsimp only
  repeat' split
  all_goals simp [hw]

@[simp] theorem Node.tell_fits (n : Node) (u : User) (o : ClaimOutcome) {owe : Nat} (hw : n.fits six owe) :
    (Node.tell n u o).fits six owe := by unfold Node.tell; split <;> simp [hw]

@[simp] theorem Node.claimFor_fits (n : Node) (u : User) (cls : Nat) {owe : Nat} (hw : n.fits six owe) :
    (n.claimFor u cls).fits six owe := by
  have h := Node.requestClaim_fits n u cls hw
  unfold Node.claimFor
  split
  · rename_i n1 o e
    rw [e] at h
    exact Node.tell_fits _ _ _ h
  · rename_i n1 e
    rw [e] at h
    exact h

@[simp] theorem Node.failClaim_fits (n : Node) (u : User) {owe : Nat} (hw : n.fits six owe) :
    (n.failClaim u).fits six owe := Node.tell_fits _ _ _ hw

@[simp] theorem Node.failAllClaims_fits (n : Node) {owe : Nat} (hw : n.fits six owe) :
    (Node.failAllClaims n).fits six owe := foldl_fits _ (fun _ _ h => by simp [h]) _ _ (by simp [hw])

/-! ## Alarm Engine -/

@[simp] theorem Node.changeEvent_fits (n : Node) (e : ChangeEntry) {owe : Nat} (hw : n.fits six owe) :
    (n.changeEvent e).fits six owe := Node.generalNotice_fits _ _ _ (fits_alarm n _ hw)

@[simp] theorem Node.voiceStop_fits (n : Node) {owe : Nat} (hw : n.fits six owe) :
    (Node.voiceStop n).fits six owe := hw

@[simp] theorem Node.leaveVoice_fits (n : Node) (a : Nat) {owe : Nat} (hw : n.fits six owe) :
    (Node.leaveVoice n a).fits six owe := by unfold Node.leaveVoice; split <;> simp [hw]

@[simp] theorem Node.keepSignal_fits (n : Node) (x : Nat × Nat) {owe : Nat} (hw : n.fits six owe) :
    (Node.keepSignal n x).fits six owe := by unfold Node.keepSignal; split <;> simp [hw]

@[simp] theorem Node.takeSignal_fits (n : Node) (a : Nat) (x : Nat × Nat) {owe : Nat} (hw : n.fits six owe) :
    (Node.takeSignal n a x).fits six owe := by simp [Node.takeSignal, hw]

@[simp] theorem Node.placeSignal_fits (top : List (Nat × Nat)) (n : Node) (x : Nat × Nat) {owe : Nat} (hw : n.fits six owe) :
    (Node.placeSignal top n x).fits six owe := by
  unfold Node.placeSignal
  repeat' split
  all_goals simp [hw]

@[simp] theorem Node.giveUpSignal_fits (top : List (Nat × Nat)) (n : Node) (a : Nat) {owe : Nat} (hw : n.fits six owe) :
    (Node.giveUpSignal top n a).fits six owe := by
  unfold Node.giveUpSignal
  dsimp only
  repeat' split
  all_goals simp [hw]

@[simp] theorem Node.assignSignals_fits (n : Node) (top : List (Nat × Nat)) {owe : Nat} (hw : n.fits six owe) :
    (n.assignSignals top).fits six owe :=
  foldl_fits _ (fun _ _ h => Node.giveUpSignal_fits _ _ _ h) _ _ (foldl_fits _ (fun _ _ h => Node.placeSignal_fits _ _ _ h) _ _
    (foldl_fits _ (fun _ _ h => Node.keepSignal_fits _ _ h) _ _ hw))

@[simp] theorem Node.placeZone_fits (needed : List (Nat × Nat)) (n : Node) (z : Nat) {owe : Nat} (hw : n.fits six owe) :
    (Node.placeZone needed n z).fits six owe := by
  unfold Node.placeZone
  dsimp only
  repeat' split
  all_goals simp [hw]

@[simp] theorem Node.recomputeAlarm_fits (n : Node) {owe : Nat} (hw : n.fits six owe) : n.recomputeAlarm.fits six owe :=
  foldl_fits _ (fun _ _ h => Node.placeZone_fits _ _ _ h) _ _ (Node.assignSignals_fits _ _ (fits_alarm n _ hw))

/-! ## Images -/

@[simp] theorem Node.setHighClasses_fits (n : Node) (cs : List ClassRecord) {owe : Nat} (hw : n.fits six owe) :
    (Node.setHighClasses n cs).fits six owe := hw

/-! ## Flash queue -/

/-- The flash queue without its head lets go a held response. -/
theorem Node.popOps_owes (n : Node) {lim : Nat → Nat} {owe : Nat} (ho : n.library.ops ≠ []) (hw : n.fits lim owe) :
    (n.setOps n.library.ops.tail).fits lim (owe + 1) := by
  have h2 := hw.2.1
  have h4 := hw.2.2.2.1
  have hl : n.library.ops.tail.length + 1 = n.library.ops.length := by
    cases h : n.library.ops with
    | nil => exact absurd h ho
    | cons a l => rfl
  refine ⟨hw.1, ?_, hw.2.2.1, ?_, hw.2.2.2.2⟩ <;> simp only [Node.heldResponses, Node.setOps] at h2 h4 ⊢ <;> omega

theorem Node.finishOp_fits (n : Node) (op : FlashOp) (status : Status) (results : List Byte) {lim : Nat → Nat} {owe : Nat}
    (ho : n.library.ops ≠ []) (hw : n.fits lim owe) : (n.finishOp op status results).fits lim owe :=
  Node.respond_fits _ _ _ _ _ (Node.popOps_owes n ho hw)

/-- A queue of as many operations keeps the bounds. -/
theorem Node.setOps_fits (n : Node) (ops : List FlashOp) {lim : Nat → Nat} {owe : Nat}
    (ho : ops.length = n.library.ops.length) (hw : n.fits lim owe) : (n.setOps ops).fits lim owe := by
  have h2 := hw.2.1
  have h4 := hw.2.2.2.1
  refine ⟨hw.1, ?_, hw.2.2.1, ?_, hw.2.2.2.2⟩ <;> simp only [Node.heldResponses, Node.setOps] at h2 h4 ⊢ <;> omega

@[simp] theorem Node.reloadContact_fits (n : Node) (x : Contact × Nat) {owe : Nat} (hw : n.fits six owe) :
    (Node.reloadContact n x).fits six owe := by
  unfold Node.reloadContact
  dsimp only
  repeat' split
  all_goals simp [hw]

@[simp] theorem Node.setTables_fits (n : Node) (sector : SignalSector) {owe : Nat} (hw : n.fits six owe) :
    (Node.setTables n sector).fits six owe := hw

@[simp] theorem Node.reloadGens_fits (n : Node) {owe : Nat} (hw : n.fits six owe) :
    (Node.reloadGens n).fits six owe := hw

@[simp] theorem Node.deliverSector_fits (n : Node) (sector : SignalSector) {owe : Nat} (hw : n.fits six owe) :
    (n.deliverSector sector).fits six owe := by
  have h1 := Node.setTables_fits _ sector (Node.classChange_fits _ [5, 6, 7] (Node.setHighClasses_fits _ sector.classes hw))
  unfold Node.deliverSector
  dsimp only
  generalize ((n.setHighClasses sector.classes).classChange [5, 6, 7]).setTables sector = m at h1 ⊢
  exact Node.recomputeAlarm_fits _ (Node.reloadGens_fits _ (foldl_fits _ (fun _ _ h => Node.reloadContact_fits _ _ h) _ _ h1))

/-- A contact's new configuration leaves the flash queue alone. -/
theorem foldl_reload_library (l : List (Contact × Nat)) (m : Node) :
    (l.foldl Node.reloadContact m).library = m.library := by
  induction l generalizing m with
  | nil => rfl
  | cons x l ih =>
    rw [List.foldl_cons, ih]
    unfold Node.reloadContact Node.changeEvent
    dsimp only
    split
    · exact congrArg Fixed.library (Node.generalNotice_fixed _ _ _)
    · rfl

/-- Parts with the same fixed fields have the same library. -/
theorem Node.library_of_fixed {m n : Node} (h : m.fixed = n.fixed) : m.library = n.library := congrArg Fixed.library h

theorem Node.classChange_library (n : Node) (cs : List Nat) : (n.classChange cs).library = n.library :=
  Node.library_of_fixed (n.classChange_fixed cs)

theorem Node.recomputeAlarm_library (n : Node) : n.recomputeAlarm.library = n.library :=
  Node.library_of_fixed n.recomputeAlarm_fixed

theorem Node.reloadGens_library (n : Node) : n.reloadGens.library = n.library := rfl

theorem Node.setTables_library (n : Node) (sector : SignalSector) : (n.setTables sector).library = n.library := rfl

theorem Node.setHighClasses_library (n : Node) (cs : List ClassRecord) : (n.setHighClasses cs).library = n.library := rfl

/-- A reloaded signal sector leaves the flash queue alone. -/
theorem Node.deliverSector_library (n : Node) (sector : SignalSector) : (n.deliverSector sector).library = n.library := by
  unfold Node.deliverSector
  dsimp only
  rw [Node.recomputeAlarm_library, Node.reloadGens_library, foldl_reload_library, Node.setTables_library,
    Node.classChange_library, Node.setHighClasses_library]

theorem Node.reloadAtHead_fits (n : Node) (op : FlashOp) {owe : Nat} (ho : n.library.ops ≠ []) (hw : n.fits six owe) :
    (n.reloadAtHead op).fits six owe := by
  unfold Node.reloadAtHead
  repeat' split
  · exact Node.finishOp_fits _ _ _ _ ho hw
  · exact Node.finishOp_fits _ _ _ _ (by rw [Node.deliverSector_library]; exact ho) (Node.deliverSector_fits _ _ hw)
  · exact Node.finishOp_fits _ _ _ _ ho hw

theorem Node.startHead_fits (n : Node) (op : FlashOp) (phase : FlashPhase) (data : List Byte) {owe : Nat}
    (ho : n.library.ops ≠ []) (hw : n.fits six owe) : (n.startHead op phase data).fits six owe := by
  refine Node.setOps_fits n _ ?_ hw
  cases h : n.library.ops with
  | nil => exact absurd h ho
  | cons a l => rfl

@[simp] theorem Node.considerHeads_fits (fuel : Nat) (n : Node) {owe : Nat} (hw : n.fits six owe) :
    (Node.considerHeads fuel n).fits six owe := by
  induction fuel generalizing n with
  | zero => exact hw
  | succ fuel ih =>
    unfold Node.considerHeads
    split
    · exact hw
    · rename_i op rest h
      have ho : n.library.ops ≠ [] := by simp [h]
      repeat' split
      all_goals first
        | exact hw
        | exact Node.startHead_fits _ _ _ _ ho hw
        | exact ih _ (Node.finishOp_fits _ _ _ _ ho hw)
        | exact ih _ (Node.reloadAtHead_fits _ _ ho hw)

@[simp] theorem Node.considerHead_fits (n : Node) {owe : Nat} (hw : n.fits six owe) :
    (Node.considerHead n).fits six owe := by simp [Node.considerHead, hw]

/-- An operation that finds a place in the queue holds the response owed. -/
theorem Node.enqueueOp_fits (n : Node) (op : FlashOp) {owe : Nat} (ho : n.library.ops.length < 4)
    (hw : n.fits six (owe + 1)) : (n.enqueueOp op).fits six owe := by
  refine Node.considerHeads_fits _ _ ?_
  have h4 := hw.2.2.2.1
  refine ⟨hw.1, ?_, hw.2.2.1, ?_, hw.2.2.2.2⟩ <;>
    simp only [Node.heldResponses, Node.setOps, List.length_append, List.length_cons, List.length_nil] at h4 ⊢ <;> omega

@[simp] theorem Node.alarmEvent_fits (n : Node) {owe : Nat} (hw : n.fits six owe) :
    (Node.alarmEvent n).fits six owe := by simp [Node.alarmEvent, hw]

@[simp] theorem Node.changeAndRecompute_fits (n : Node) (e : ChangeEntry) {owe : Nat} (hw : n.fits six owe) :
    (Node.changeAndRecompute n e).fits six owe := by simp [Node.changeAndRecompute, hw]

/-! ## Player Unit -/

@[simp] theorem Node.deliverBatch_fits (n : Node) (p : Nat) (stalled : Nat → Bool) {owe : Nat} (hw : n.fits six owe) :
    (Node.deliverBatch n p stalled).fits six owe := by
  unfold Node.deliverBatch
  dsimp only
  repeat' split
  all_goals simp [hw]

@[simp] theorem Node.deliverFirst_fits (n : Node) (p : Nat) {owe : Nat} (hw : n.fits six owe) :
    (Node.deliverFirst n p).fits six owe := by simp [Node.deliverFirst, hw]

@[simp] theorem Node.deliverFrame_fits (n : Node) (p : Nat) {owe : Nat} (hw : n.fits six owe) :
    (Node.deliverFrame n p).fits six owe := by simp [Node.deliverFrame, hw]

@[simp] theorem Node.playerTick_fits (n : Node) (p : Nat) {owe : Nat} (hw : n.fits six owe) :
    (Node.playerTick n p).fits six owe := by simp [Node.playerTick, hw]

@[simp] theorem Node.passEnd_fits (n : Node) (p : Nat) {owe : Nat} (hw : n.fits six owe) :
    (Node.passEnd n p).fits six owe := by
  unfold Node.passEnd
  dsimp only
  repeat' split
  all_goals simp [hw]

@[simp] theorem Node.openJob_fits (n : Node) (who : Req) (a : PlayArgs) (p : Nat) (e : Entry) {owe : Nat} (hw : n.fits six owe) :
    (Node.openJob n who a p e).fits six owe := by simp [Node.openJob, hw]

@[simp] theorem Node.pushJob_fits (n : Node) (p : Nat) (a : PlayArgs) {owe : Nat} (hw : n.fits six owe) :
    (Node.pushJob n p a).node.fits six owe := by unfold Node.pushJob; split <;> simp [hw]

@[simp] theorem Node.gateJob_fits (n : Node) (p : Nat) (a : PlayArgs) {owe : Nat} (hw : n.fits six owe) :
    (Node.gateJob n p a).fits six owe := by unfold Node.gateJob; split <;> simp (maxDischargeDepth := 40) [hw]

@[simp] theorem Node.playNow_fits (n : Node) (who : Req) (a : PlayArgs) {owe : Nat} (hw : n.fits six (owe + 1)) :
    (n.playNow who a).fits six owe := by
  unfold Node.playNow
  dsimp only
  repeat' split
  all_goals simp (maxDischargeDepth := 40) [hw]

@[simp] theorem Node.stopNow_fits (n : Node) (who : Req) (p : Nat) {owe : Nat} (hw : n.fits six (owe + 1)) :
    (n.stopNow who p).fits six owe := by
  unfold Node.stopNow
  repeat' split
  all_goals simp [hw]

/-- A waiting command holds the response owed. -/
theorem Node.joinWaits_fits (n : Node) (x : PlayWait) {owe : Nat} (hw : n.fits six (owe + 1)) :
    (n.setWaits (n.players.waits ++ [x])).fits six owe := by
  have h4 := hw.2.2.2.1
  refine ⟨hw.1, hw.2.1, hw.2.2.1, ?_, hw.2.2.2.2⟩
  simp only [Node.heldResponses, Node.setWaits, List.length_append, List.length_cons, List.length_nil] at h4 ⊢
  omega

@[simp] theorem Node.takePlay_fits (n : Node) (who : Req) (a : PlayArgs) {owe : Nat} (hw : n.fits six (owe + 1)) :
    (n.takePlay who a).fits six owe := by
  unfold Node.takePlay
  split
  · exact Node.joinWaits_fits _ _ hw
  · exact Node.playNow_fits _ _ _ hw

@[simp] theorem Node.takeStop_fits (n : Node) (who : Req) (p : Nat) {owe : Nat} (hw : n.fits six (owe + 1)) :
    (n.takeStop who p).fits six owe := by
  unfold Node.takeStop
  split
  · exact Node.stopNow_fits _ _ _ hw
  · exact Node.joinWaits_fits _ _ hw

@[simp] theorem Node.resumeWait_fits (n : Node) (x : PlayWait) {owe : Nat} (hw : n.fits six (owe + 1)) :
    (n.resumeWait x).fits six owe := by
  cases x
  · exact Node.playNow_fits _ _ _ hw
  · exact Node.stopNow_fits _ _ _ hw

/-- A fold of an operation that uses up one response owed. -/
theorem foldl_owed {α : Type} {owe : Nat} (f : Node → α → Node)
    (h : ∀ n a owe, n.fits six (owe + 1) → (f n a).fits six owe) (l : List α) (n : Node)
    (hw : n.fits six (owe + l.length)) : (l.foldl f n).fits six owe := by
  induction l generalizing n with
  | nil => exact hw
  | cons a l ih => exact ih (f n a) (h n a _ hw)

@[simp] theorem Node.resumeWaits_fits (n : Node) {owe : Nat} (hw : n.fits six owe) : n.resumeWaits.fits six owe := by
  refine foldl_owed _ (fun _ _ _ h => Node.resumeWait_fits _ _ h) _ _ ?_
  have h4 := hw.2.2.2.1
  refine ⟨hw.1, hw.2.1, hw.2.2.1, ?_, hw.2.2.2.2⟩
  simp only [Node.heldResponses, Node.setWaits, List.length_nil] at h4 ⊢
  omega

@[simp] theorem Node.preempt_fits (n : Node) {owe : Nat} (hw : n.fits six owe) :
    (Node.preempt n).fits six owe := by unfold Node.preempt; split <;> simp [hw]

@[simp] theorem Node.voiceBegin_fits (n : Node) (a : Nat) (e : Entry) {owe : Nat} (hw : n.fits six owe) :
    (Node.voiceBegin n a e).fits six owe := by simp (maxDischargeDepth := 40) [Node.voiceBegin, hw]

@[simp] theorem Node.periodEnd_fits (n : Node) (a : Nat) {owe : Nat} (hw : n.fits six owe) :
    (Node.periodEnd n a).fits six owe := by unfold Node.periodEnd; split <;> simp [hw]

@[simp] theorem Node.voiceEnd_fits (n : Node) {owe : Nat} (hw : n.fits six owe) :
    (Node.voiceEnd n).fits six owe := by unfold Node.voiceEnd; split <;> simp (maxDischargeDepth := 40) [hw]

@[simp] theorem Node.playerEnd_fits (n : Node) (p : Nat) {owe : Nat} (hw : n.fits six owe) :
    (Node.playerEnd n p).fits six owe := by
  unfold Node.playerEnd
  repeat' split
  all_goals simp [hw]

/-! ## Flash commands -/

@[simp] theorem Node.answerRead_fits (n : Node) (w : ReadWait) {owe : Nat} (hw : n.fits six (owe + 1)) :
    (n.answerRead w).fits six owe := Node.respond_fits _ _ _ _ _ hw

@[simp] theorem Node.serveBank_fits (n : Node) (bank : Nat) {owe : Nat} (hw : n.fits six owe) :
    (n.serveBank bank).fits six owe := by
  have h : ((n.library.readWaits.filter fun w => bankOf w.sector = bank).foldl Node.answerRead
      (n.setReadWaits (n.library.readWaits.filter fun w => bankOf w.sector ≠ bank))).fits six owe := by
    refine foldl_owed _ (fun _ _ _ h => Node.answerRead_fits _ _ h) _ _ ?_
    have h3 := hw.2.2.1
    have h4 := hw.2.2.2.1
    have hl : (n.library.readWaits.filter fun w => bankOf w.sector = bank).length +
        (n.library.readWaits.filter fun w => bankOf w.sector ≠ bank).length = n.library.readWaits.length := by
      rw [List.length_eq_length_filter_add (l := n.library.readWaits) fun w => decide (bankOf w.sector = bank)]
      simp
    refine ⟨hw.1, hw.2.1, ?_, ?_, hw.2.2.2.2⟩ <;> simp only [Node.heldResponses, Node.setReadWaits] at h3 h4 hl ⊢ <;> omega
  unfold Node.serveBank
  dsimp only
  split
  · exact Node.resumeWaits_fits _ h
  · exact h

theorem Node.finishWrite_fits (n : Node) (op : FlashOp) {owe : Nat} (ho : n.library.ops ≠ []) (hw : n.fits six owe) :
    (n.finishWrite op).fits six owe := by
  unfold Node.finishWrite
  dsimp only
  repeat' split
  all_goals exact Node.finishOp_fits _ _ _ _ ho hw

@[simp] theorem Node.admitOp_fits (n : Node) (op : FlashOp) {owe : Nat} (hw : n.fits six (owe + 1)) :
    (n.admitOp op).fits six owe := by
  unfold Node.admitOp
  repeat' split
  · simp [hw]
  · simp [hw]
  · simp [hw]
  · rename_i h
    exact Node.enqueueOp_fits _ _ (by simpa [Node.opsFull] using h) hw

@[simp] theorem Node.takeErase_fits (n : Node) (who : Req) (sector : Nat) {owe : Nat} (hw : n.fits six (owe + 1)) :
    (n.takeErase who sector).fits six owe := by
  unfold Node.takeErase
  repeat' split
  all_goals simp [hw]

@[simp] theorem Node.takeWrite_fits (n : Node) (who : Req) (sector offset : Nat) (data : List Byte) {owe : Nat} (hw : n.fits six (owe + 1)) :
    (n.takeWrite who sector offset data).fits six owe := by
  unfold Node.takeWrite
  repeat' split
  all_goals simp [hw]

@[simp] theorem Node.takeRead_fits (n : Node) (who : Req) (sector offset count : Nat) {owe : Nat} (hw : n.fits six (owe + 1)) :
    (n.takeRead who sector offset count).fits six owe := by
  unfold Node.takeRead
  dsimp only
  repeat' split
  all_goals first
    | simp [hw]
    | (rename_i h
       have h3 := hw.2.2.1
       have h4 := hw.2.2.2.1
       refine ⟨hw.1, hw.2.1, ?_, ?_, hw.2.2.2.2⟩ <;>
         simp only [Node.heldResponses, Node.setReadWaits, List.length_append, List.length_cons, List.length_nil] at h3 h4 ⊢ <;>
         omega)

@[simp] theorem Node.takeSave_fits (n : Node) (who : Req) {owe : Nat} (hw : n.fits six (owe + 1)) :
    (n.takeSave who).fits six owe := by
  unfold Node.takeSave
  split
  · simp [hw]
  · rename_i h
    exact Node.enqueueOp_fits _ _ (by simpa [Node.opsFull] using h) hw

@[simp] theorem Node.takeReload_fits (n : Node) (who : Req) {owe : Nat} (hw : n.fits six (owe + 1)) :
    (n.takeReload who).fits six owe := by
  unfold Node.takeReload
  repeat' split
  · simp [hw]
  · simp [hw]
  · rename_i h
    exact Node.enqueueOp_fits _ _ (by simpa [Node.opsFull] using h) hw

/-! ## Ports and transmitters -/

@[simp] theorem Node.sendEast_fits (n : Node) (source : TxSource) (next : Nat) (feed : Option Frame) {owe : Nat} (hw : n.fits six owe) :
    (Node.sendEast n source next feed).fits six owe := hw

@[simp] theorem Node.sendWest_fits (n : Node) (source : TxSource) (next : Nat) (feed : Option Frame) {owe : Nat} (hw : n.fits six owe) :
    (Node.sendWest n source next feed).fits six owe := hw

@[simp] theorem Node.silenceWest_fits (n : Node) {owe : Nat} (hw : n.fits six owe) :
    (Node.silenceWest n).fits six owe := hw

@[simp] theorem Node.sendProcessed_fits (n : Node) (p : Port) (f : Option Frame) {owe : Nat} (hw : n.fits six owe) :
    (Node.sendProcessed n p f).fits six owe := by unfold Node.sendProcessed; split <;> simp [hw]

@[simp] theorem Node.repeatEast_fits (n : Node) (source : TxSource) {owe : Nat} (hw : n.fits six owe) :
    (Node.repeatEast n source).fits six owe := hw

@[simp] theorem Node.sendGenerated_fits (n : Node) (source : TxSource) (f : Frame) {owe : Nat} (hw : n.fits six owe) :
    (Node.sendGenerated n source f).fits six owe := by
  unfold Node.sendGenerated
  repeat' split
  all_goals simp [hw]

/-! ## Slot headers -/

@[simp] theorem SlotWork.write_fits (w : SlotWork) (k : Nat) (f : SlotField) {owe : Nat} (hw : w.node.fits six owe) :
    (SlotWork.write w k f).node.fits six owe := hw

@[simp] theorem SlotWork.writeOwned_fits (w : SlotWork) (k : Nat) (f : SlotField) {owe : Nat} (hw : w.node.fits six owe) :
    (SlotWork.writeOwned w k f).node.fits six owe := by unfold SlotWork.writeOwned; split <;> simp [hw]

@[simp] theorem Node.slotLost_fits (n : Node) (k : Nat) (c : Claim) {owe : Nat} (hw : n.fits six owe) :
    (Node.slotLost n k c).fits six owe := by unfold Node.slotLost; split <;> simp [hw]

@[simp] theorem SlotWork.claiming_fits (w : SlotWork) (k : Nat) (f : SlotField) (c : Claim) {owe : Nat} (hw : w.node.fits six owe) :
    (SlotWork.claiming w k f c).node.fits six owe := by
  unfold SlotWork.claiming
  repeat' split
  all_goals simp (maxDischargeDepth := 40) [hw]

@[simp] theorem SlotWork.held_fits (w : SlotWork) (k : Nat) (f : SlotField) (c : Claim) {owe : Nat} (hw : w.node.fits six owe) :
    (SlotWork.held w k f c).node.fits six owe := by
  unfold SlotWork.held
  repeat' split
  all_goals simp [hw]

@[simp] theorem Node.clearOwed_fits (n : Node) (k : Nat) {owe : Nat} (hw : n.fits six owe) :
    (Node.clearOwed n k).fits six owe := hw

@[simp] theorem SlotWork.owing_fits (w : SlotWork) (k : Nat) (f : SlotField) {owe : Nat} (hw : w.node.fits six owe) :
    (SlotWork.owing w k f).node.fits six owe := by
  unfold SlotWork.owing
  repeat' split
  all_goals simp [hw]

@[simp] theorem SlotWork.entryStep_fits (h : Headers) (w : SlotWork) (k : Nat) {owe : Nat} (hw : w.node.fits six owe) :
    (SlotWork.entryStep h w k).node.fits six owe := by
  unfold SlotWork.entryStep
  dsimp only
  repeat' split
  all_goals simp [hw]

@[simp] theorem SlotWork.search_fits (h : Headers) (w : SlotWork) (c : Claim) {owe : Nat} (hw : w.node.fits six owe) :
    (SlotWork.search h w c).node.fits six owe := by unfold SlotWork.search; split <;> simp (maxDischargeDepth := 40) [hw]

theorem foldl_entry_fits (h : Headers) (l : List Nat) (w : SlotWork) {owe : Nat} (hw : w.node.fits six owe) :
    (l.foldl (SlotWork.entryStep h) w).node.fits six owe := by
  induction l generalizing w with
  | nil => exact hw
  | cons a l ih => exact ih _ (SlotWork.entryStep_fits h w a hw)

theorem foldl_search_fits (h : Headers) (l : List Claim) (w : SlotWork) {owe : Nat} (hw : w.node.fits six owe) :
    (l.foldl (SlotWork.search h) w).node.fits six owe := by
  induction l generalizing w with
  | nil => exact hw
  | cons a l ih => exact ih _ (SlotWork.search_fits h w a hw)

@[simp] theorem Node.slotFrame_fits (n : Node) (h : Headers) {owe : Nat} (hw : n.fits six owe) :
    (n.slotFrame h).node.fits six owe := foldl_search_fits h _ _ (foldl_entry_fits h _ { node := n, sent := h } hw)

@[simp] theorem Node.orphanStep_fits (n : Node) (k : Nat) (fresh : Bool) {owe : Nat} (hw : n.fits six owe) :
    (Node.orphanStep n k fresh).fits six owe := by
  unfold Node.orphanStep
  dsimp only
  repeat' split
  all_goals simp [hw]

@[simp] theorem Node.registerStep_fits (h : Headers) (n : Node) (k : Nat) {owe : Nat} (hw : n.fits six owe) :
    (Node.registerStep h n k).fits six owe := by
  unfold Node.registerStep
  dsimp only
  repeat' split
  all_goals simp [hw]

@[simp] theorem Node.registerFrame_fits (n : Node) (h : Headers) {owe : Nat} (hw : n.fits six owe) :
    (Node.registerFrame n h).fits six owe := foldl_fits _ (fun _ _ h => by simp [h]) _ _ (by simp [hw])

@[simp] theorem Node.autoEndNow_fits (n : Node) (id : Nat) {owe : Nat} (hw : n.fits six owe) :
    (Node.autoEndNow n id).fits six owe := by simp [Node.autoEndNow, hw]

@[simp] theorem Node.freeRunStep_fits (h : Headers) (n : Node) (id : Nat) {owe : Nat} (hw : n.fits six owe) :
    (Node.freeRunStep h n id).fits six owe := by
  unfold Node.freeRunStep
  repeat' split
  all_goals simp [hw]

@[simp] theorem Node.freeRuns_fits (n : Node) (h : Headers) {owe : Nat} (hw : n.fits six owe) :
    (Node.freeRuns n h).fits six owe := foldl_fits _ (fun _ _ h => by simp [h]) _ _ (by simp [hw])

@[simp] theorem Node.pathStep_fits (h : Headers) (n : Node) (r : Nat) {owe : Nat} (hw : n.fits six owe) :
    (Node.pathStep h n r).fits six owe := by
  unfold Node.pathStep
  dsimp only
  repeat' split
  all_goals simp [hw]

@[simp] theorem Node.pathCounts_fits (n : Node) (h : Headers) {owe : Nat} (hw : n.fits six owe) :
    (Node.pathCounts n h).fits six owe := foldl_fits _ (fun _ _ h => by simp [h]) _ _ (by simp [hw])

/-! ## Control lane -/

@[simp] theorem Node.deliveryOutcome_fits (n : Node) (p : Packet) (d : Delivery) {owe : Nat} (hw : n.fits six owe) :
    (n.deliveryOutcome p d).fits six owe := by
  have hr : byteAt p.payload 1 % 8 < 8 := Nat.mod_lt _ (by decide)
  unfold Node.deliveryOutcome
  dsimp only
  repeat' split
  · exact Node.carryOutAnswer_fits _ _ hr (Node.modCall_fits _ _ _ hw)
  · exact Node.modCall_fits _ _ _ hw
  · exact Node.sendTied_fits _ _ _ _ hr (Node.modCall_fits _ _ _ hw)
  · exact Node.callEnd_fits _ _ _ _ hw
  · exact Node.callEnd_fits _ _ _ _ hw
  · exact hw

@[simp] theorem laneStep_fits (n : Node) (bytes : List Byte) {owe : Nat} (hw : n.fits six owe) :
    (laneStep n bytes).node.fits six owe := hw

@[simp] theorem Node.setFollow_fits (n : Node) (f : Option Follow) {owe : Nat} (hw : n.fits six owe) :
    (Node.setFollow n f).fits six owe := hw

@[simp] theorem Node.laneMissed_fits (n : Node) (bytes : List Byte) {owe : Nat} (hw : n.fits six owe) :
    (Node.laneMissed n bytes).fits six owe := hw

@[simp] theorem Node.laneStart_fits (n : Node) (seq : Nat) (lane : List Byte) {owe : Nat} (hw : n.fits six owe) :
    (Node.laneStart n seq lane).node.fits six owe := hw

@[simp] theorem Node.popOutbound_fits (n : Node) {owe : Nat} (hw : n.fits six owe) : n.popOutbound.fits six owe := by
  have h5 := hw.2.2.2.2.1
  refine ⟨hw.1, hw.2.1, hw.2.2.1, hw.2.2.2.1, ?_, hw.2.2.2.2.2⟩
  simp only [Node.popOutbound, List.length_tail]
  omega

@[simp] theorem Node.refuse_fits (n : Node) (lane : List Byte) {owe : Nat} (hw : n.fits six owe) :
    (Node.refuse n lane).node.fits six owe := hw

@[simp] theorem Node.relayFeed_fits (n : Node) (seq : Nat) (lane : List Byte) (emptied : Bool) {owe : Nat} (hw : n.fits six owe) :
    (Node.relayFeed n seq lane emptied).fits six owe := by
  unfold Node.relayFeed
  dsimp only
  split <;> exact hw

@[simp] theorem Node.relayBreak_fits (n : Node) {owe : Nat} (hw : n.fits six owe) :
    (Node.relayBreak n).fits six owe := hw

@[simp] theorem Node.relayEmpty_fits (n : Node) {owe : Nat} (hw : n.fits six owe) :
    (Node.relayEmpty n).fits six owe := hw

@[simp] theorem Node.openWindow_fits (n : Node) {owe : Nat} (hw : n.fits six owe) :
    (Node.openWindow n).fits six owe := hw

@[simp] theorem Node.generateLane_fits (n : Node) (seq : Nat) {owe : Nat} (hw : n.fits six owe) :
    (n.generateLane seq).node.fits six owe := by
  have h1 : (if seq % 8 = 0 then n.openWindow else n).fits six owe := by
    split <;> exact hw
  unfold Node.generateLane
  dsimp only
  generalize (if seq % 8 = 0 then n.openWindow else n) = m at h1 ⊢
  split
  · exact Node.popOutbound_fits _ h1
  · exact h1

/-! ## Start-up -/

@[simp] theorem Node.withLinks_fits (n old : Node) {owe : Nat} (hw : n.fits six owe) :
    (Node.withLinks n old).fits six owe := hw

/-! ## Frames -/

@[simp] theorem Node.readWord_fits (n : Node) (w : AlarmWord) {owe : Nat} (hw : n.fits six owe) :
    (n.readWord w).fits six owe := by
  unfold Node.readWord
  repeat' split
  · exact hw
  · exact hw
  · exact Node.changeAndRecompute_fits _ _ (fits_alarm n _ hw)
  · exact fits_alarm n _ hw

@[simp] theorem Node.hearForeign_fits (n : Node) {owe : Nat} (hw : n.fits six owe) :
    (Node.hearForeign n).fits six owe := hw

@[simp] theorem Node.dualMaster_fits (n : Node) (outcome : Nat) (f : Frame) {owe : Nat} (hw : n.fits six owe) :
    (Node.dualMaster n outcome f).fits six owe := by unfold Node.dualMaster; split <;> simp [hw]

@[simp] theorem Node.loseHeld_fits (n : Node) (k : Nat) {owe : Nat} (hw : n.fits six owe) :
    (Node.loseHeld n k).fits six owe := by unfold Node.loseHeld; split <;> simp [hw]

@[simp] theorem Node.loseAllHeld_fits (n : Node) {owe : Nat} (hw : n.fits six owe) :
    (Node.loseAllHeld n).fits six owe := foldl_fits _ (fun _ _ h => by simp [h]) _ _ (by simp [hw])

@[simp] theorem Node.emptyRegister_fits (n : Node) {owe : Nat} (hw : n.fits six owe) :
    (Node.emptyRegister n).fits six owe := hw

@[simp] theorem Node.heldFrame_fits (n : Node) (p : Port) (f : Frame) {owe : Nat} (hw : n.fits six owe) :
    (Node.heldFrame n p f).fits six owe := by simp [Node.heldFrame, hw]

@[simp] theorem Node.discardFrame_fits (n : Node) (f : Frame) {owe : Nat} (hw : n.fits six owe) :
    (Node.discardFrame n f).fits six owe := hw

@[simp] theorem Node.decidePending_fits (n : Node) (c : Claim) {owe : Nat} (hw : n.fits six owe) :
    (Node.decidePending n c).fits six owe := by unfold Node.decidePending; split <;> simp (maxDischargeDepth := 40) [hw]

/-! ## Generators, contacts, zones -/

@[simp] theorem Node.latchChannel_fits (n : Node) (a : Nat) {owe : Nat} (hw : n.fits six owe) :
    (Node.latchChannel n a).fits six owe := hw

@[simp] theorem Node.channelTick_fits (n : Node) (a : Nat) {owe : Nat} (hw : n.fits six owe) :
    (Node.channelTick n a).fits six owe := hw

@[simp] theorem Node.callToneTick_fits (n : Node) {owe : Nat} (hw : n.fits six owe) :
    (Node.callToneTick n).fits six owe := hw

@[simp] theorem Node.genTick_fits (n : Node) (x : Gen) {owe : Nat} (hw : n.fits six owe) :
    (Node.genTick n x).fits six owe := by unfold Node.genTick; split <;> simp [hw]

@[simp] theorem Node.contactChange_fits (n : Node) (k : Nat) {owe : Nat} (hw : n.fits six owe) :
    (Node.contactChange n k).fits six owe := by simp [Node.contactChange, hw]

@[simp] theorem Node.contactRead_fits (n : Node) (k : Nat) {owe : Nat} (hw : n.fits six owe) :
    (Node.contactRead n k).fits six owe := by
  unfold Node.contactRead
  dsimp only
  repeat' split
  all_goals simp [hw]

@[simp] theorem Node.zoneRamps_fits (n : Node) (z : Nat) {owe : Nat} (hw : n.fits six owe) : (n.zoneRamps z).fits six owe :=
  Node.modZone_fits n z _ (fun r => by simp) hw

@[simp] theorem Node.computeZone_fits (n : Node) (z : Nat) {owe : Nat} (hw : n.fits six owe) : (n.computeZone z).fits six owe := by
  have h := foldl_fits (fun (n : Node) id => n.removeLayer z id) (fun _ _ h => Node.removeLayer_fits _ _ _ h) (n.fadedOut z) _
    (Node.zoneRamps_fits n z hw)
  unfold Node.computeZone
  dsimp only
  generalize (n.fadedOut z).foldl (fun n id => n.removeLayer z id) (n.zoneRamps z) = m at h ⊢
  exact Node.modZone_fits m z (fun r => r.emit (m.accumulate z)) (fun _ => rfl) h

@[simp] theorem Node.computeZones_fits (n : Node) {owe : Nat} (hw : n.fits six owe) :
    (Node.computeZones n).fits six owe := foldl_fits _ (fun _ _ h => by simp [h]) _ _ (by simp [hw])

/-! ## Status outputs -/

@[simp] theorem Node.drive_fits (n : Node) (found : ZoneStacks) {owe : Nat} (hw : n.fits six owe) :
    (Node.drive n found).fits six owe := hw

/-! ## Timers -/

@[simp] theorem Node.jobOlder_fits (n : Node) (p : Nat) {owe : Nat} (hw : n.fits six owe) :
    (Node.jobOlder n p).fits six owe := by unfold Node.jobOlder; split <;> simp [hw]

@[simp] theorem Node.quieter_fits (n : Node) {owe : Nat} (hw : n.fits six owe) :
    (Node.quieter n).fits six owe := by
  unfold Node.quieter
  repeat' split
  all_goals exact hw

@[simp] theorem Node.restartOlder_fits (n : Node) {owe : Nat} (hw : n.fits six owe) :
    (Node.restartOlder n).fits six owe := hw

@[simp] theorem Node.counts_fits (n : Node) {owe : Nat} (hw : n.fits six owe) : n.counts.fits six owe := by
  have h1 : ({ n with slots := n.slots.older
                      calls := { n.calls with records := n.calls.records.map CallRecord.older } } : Node).fits six owe :=
    Node.fits_of (n := n) (fun _ => rfl) rfl rfl rfl rfl rfl rfl (by simp) hw
  exact Node.restartOlder_fits _ (Node.quieter_fits _ (foldl_fits _ (fun _ _ h => Node.jobOlder_fits _ _ h) _ _ h1))

@[simp] theorem Node.claimTimeouts_fits (n : Node) {owe : Nat} (hw : n.fits six owe) :
    (Node.claimTimeouts n).fits six owe := foldl_fits _ (fun _ _ h => by simp [h]) _ _ (by simp [hw])

@[simp] theorem Node.offerTimeout_fits (n : Node) (r : Nat) {owe : Nat} (hw : n.fits six owe) :
    (Node.offerTimeout n r).fits six owe := by unfold Node.offerTimeout; split <;> simp [hw]

@[simp] theorem Node.callLimit_fits (n : Node) (r : Nat) {owe : Nat} (hw : n.fits six owe) :
    (Node.callLimit n r).fits six owe := by unfold Node.callLimit; split <;> simp [hw]

@[simp] theorem Node.callTimeout_fits (n : Node) (r : Nat) {owe : Nat} (hw : n.fits six owe) :
    (Node.callTimeout n r).fits six owe := by unfold Node.callTimeout; split <;> simp [hw]

@[simp] theorem Node.callTimeouts_fits (n : Node) {owe : Nat} (hw : n.fits six owe) :
    (Node.callTimeouts n).fits six owe := foldl_fits _ (fun _ _ h => by simp [h]) _ _ (by simp [hw])

@[simp] theorem Node.waitStep_fits (n : Node) (p : Nat) {owe : Nat} (hw : n.fits six owe) :
    (Node.waitStep n p).fits six owe := by
  unfold Node.waitStep
  dsimp only
  repeat' split
  all_goals simp [hw]

@[simp] theorem Node.gapStep_fits (n : Node) (p : Nat) {owe : Nat} (hw : n.fits six owe) :
    (Node.gapStep n p).fits six owe := by
  unfold Node.gapStep
  dsimp only
  repeat' split
  all_goals simp [hw]

@[simp] theorem Node.jobStep_fits (n : Node) (p : Nat) {owe : Nat} (hw : n.fits six owe) :
    (Node.jobStep n p).fits six owe := by simp [Node.jobStep, hw]

@[simp] theorem Node.periodCount_fits (n : Node) (a : Nat) {owe : Nat} (hw : n.fits six owe) :
    (Node.periodCount n a).fits six owe := by unfold Node.periodCount; split <;> simp [hw]

@[simp] theorem Node.periodStep_fits (n : Node) {owe : Nat} (hw : n.fits six owe) : n.periodStep.fits six owe :=
  foldl_fits _ (fun _ _ h => Node.periodEnd_fits _ _ h) _ _ (foldl_fits _ (fun _ _ h => Node.periodCount_fits _ _ h) _ _ hw)

/-! ## Frame time -/

@[simp] theorem Node.readGenerated_fits (n : Node) (h : Headers) {owe : Nat} (hw : n.fits six owe) :
    (Node.readGenerated n h).fits six owe := by
  unfold Node.readGenerated
  repeat' split
  all_goals simp [hw]

@[simp] theorem Node.missed_fits (n : Node) {owe : Nat} (hw : n.fits six owe) :
    (Node.missed n).fits six owe := hw

@[simp] theorem Node.westOfSlave_fits (n : Node) {owe : Nat} (hw : n.fits six owe) :
    (Node.westOfSlave n).fits six owe := by unfold Node.westOfSlave; split <;> simp [hw]

@[simp] theorem Node.slaveLinks_fits (n : Node) {owe : Nat} (hw : n.fits six owe) :
    (Node.slaveLinks n).fits six owe := by
  unfold Node.slaveLinks
  repeat' split
  all_goals simp [hw]

@[simp] theorem Node.startingLinks_fits (n : Node) {owe : Nat} (hw : n.fits six owe) :
    (Node.startingLinks n).fits six owe := by
  unfold Node.startingLinks
  repeat' split
  all_goals exact hw

@[simp] theorem Node.playerSounds_fits (n : Node) (p : Nat) {owe : Nat} (hw : n.fits six owe) :
    (n.playerSounds p).fits six owe := by
  unfold Node.playerSounds
  split
  · exact hw
  · exact Node.mark_fits _ _ (Node.playerTick_fits _ _ hw)

@[simp] theorem Node.sounds_fits (n : Node) {owe : Nat} (hw : n.fits six owe) : n.sounds.fits six owe := by
  refine foldl_fits _ (fun m g h => ?_) _ _ (foldl_fits _ (fun m p h => Node.playerSounds_fits m p h) _ _ hw)
  split
  · exact h
  · exact Node.genTick_fits _ _ h

@[simp] theorem Node.contactStep_fits (n : Node) {owe : Nat} (hw : n.fits six owe) :
    (Node.contactStep n).fits six owe := by simp [Node.contactStep, hw]

@[simp] theorem Node.timerEvents_fits (n : Node) {owe : Nat} (hw : n.fits six owe) :
    (Node.timerEvents n).fits six owe := by simp (maxDischargeDepth := 40) [Node.timerEvents, hw]

@[simp] theorem Node.endArrivals_fits (n : Node) {owe : Nat} (hw : n.fits six owe) :
    (Node.endArrivals n).fits six owe := hw

@[simp] theorem Node.endFrame_fits (n : Node) (found : ZoneStacks) {owe : Nat} (hw : n.fits six owe) :
    (Node.endFrame n found).fits six owe := hw

/-! ## Commands of the ring -/

theorem countP_modify_succ {α : Type} (p : α → Bool) (f : α → α) (l : List α) (i : Nat) :
    (l.modify i f).countP p ≤ l.countP p + 1 := by
  induction l generalizing i with
  | nil => cases i <;> simp
  | cons a l ih =>
    cases i with
    | zero =>
      simp only [List.modify_zero_cons, List.countP_cons]
      split <;> split <;> omega
    | succ i =>
      have := ih i
      simp only [List.modify_succ_cons, List.countP_cons]
      omega

/-- A talk record that changes holds at most the response owed. -/
theorem Node.modTalk_holds (n : Node) (i : Nat) (f : TalkRecord → TalkRecord) {owe : Nat} (hw : n.fits six (owe + 1)) :
    (n.modTalk i f).fits six owe := by
  have := countP_modify_succ (fun t : TalkRecord => decide (t.state = .claiming)) f n.slots.talks i
  refine ⟨hw.1, hw.2.1, hw.2.2.1, ?_, hw.2.2.2.2⟩
  have h := hw.2.2.2.1
  simp only [Node.heldResponses, Node.modTalk] at h ⊢
  omega

@[simp] theorem Node.sendTalk_fits (n : Node) (who : Req) (input cls : Nat) {owe : Nat} (hw : n.fits six (owe + 1)) :
    (n.sendTalk who input cls).fits six owe := by
  unfold Node.sendTalk
  repeat' split
  · simp [hw]
  · simp [hw]
  · simp [hw]
  · exact Node.claimFor_fits _ _ _ (Node.modTalk_holds n input _ hw)

@[simp] theorem Node.unsendTalk_fits (n : Node) (who : Req) (input : Nat) {owe : Nat} (hw : n.fits six (owe + 1)) :
    (n.unsendTalk who input).fits six owe := by
  unfold Node.unsendTalk
  dsimp only
  split
  · simp [hw]
  split
  · simp [hw]
  · refine Node.respond_fits _ _ _ _ _ (Node.modTalk_fits _ input _ (by simp [TalkRecord.unsent]) ?_)
    exact Node.releaseClaim_fits n _ hw
  · rename_i h
    refine Node.respond_fits _ _ _ _ _ (Node.respond_fits _ _ _ _ _ ?_)
    exact Node.modTalk_owes _ input _ h (by simp [TalkRecord.unsent]) (Node.releaseClaim_fits n _ hw)

@[simp] theorem Node.readSlots_fits (n : Node) (who : Req) (view first count : Nat) {owe : Nat} (hw : n.fits six (owe + 1)) :
    (n.readSlots who view first count).fits six owe := by
  unfold Node.readSlots
  repeat' split
  all_goals simp [hw]

/-! ## Commands of zones and alarms -/

@[simp] theorem Node.readZone_fits (n : Node) (who : Req) (z : Nat) {owe : Nat} (hw : n.fits six (owe + 1)) :
    (n.readZone who z).fits six owe := by
  unfold Node.readZone
  split
  · simp [hw]
  · exact Node.respond_fits _ _ _ _ _ (Node.modZone_fits n z (fun r => { r with clips := 0 }) (fun _ => rfl) hw)

@[simp] theorem Node.bindSource_fits (n : Node) (who : Req) (kind index cls : Nat) (gain : Int) (autoEnd : Bool) (cookie : Nat) (target : Target) {owe : Nat} (hw : n.fits six (owe + 1)) :
    (n.bindSource who kind index cls gain autoEnd cookie target).fits six owe := by
  unfold Node.bindSource
  dsimp only
  repeat' split
  all_goals simp [hw]

@[simp] theorem Node.unbindId_fits (n : Node) (who : Req) (id : Nat) {owe : Nat} (hw : n.fits six (owe + 1)) :
    (n.unbindId who id).fits six owe := by
  unfold Node.unbindId
  repeat' split
  all_goals simp (maxDischargeDepth := 40) [hw]

@[simp] theorem Node.readBinding_fits (n : Node) (who : Req) (id : Nat) {owe : Nat} (hw : n.fits six (owe + 1)) :
    (n.readBinding who id).fits six owe := by
  unfold Node.readBinding
  repeat' split
  all_goals simp [hw]

@[simp] theorem Node.writeClass_fits (n : Node) (who : Req) (c equal : Nat) (duck : Int) (volume : Nat) (kinds : Byte) (limit : Nat) {owe : Nat} (hw : n.fits six (owe + 1)) :
    (n.writeClass who c equal duck volume kinds limit).fits six owe := by
  unfold Node.writeClass
  dsimp only
  repeat' split
  all_goals simp (maxDischargeDepth := 40) [hw]

@[simp] theorem Node.readClass_fits (n : Node) (who : Req) (c : Nat) {owe : Nat} (hw : n.fits six (owe + 1)) :
    (n.readClass who c).fits six owe := by
  unfold Node.readClass
  repeat' split
  all_goals simp [hw]

@[simp] theorem Node.readStack_fits (n : Node) (who : Req) (z : Nat) {owe : Nat} (hw : n.fits six (owe + 1)) :
    (n.readStack who z).fits six owe := by
  unfold Node.readStack
  repeat' split
  all_goals simp [hw]

@[simp] theorem Node.setAlarm_fits (n : Node) (who : Req) (code : Nat) (mask : Mask16) {owe : Nat} (hw : n.fits six (owe + 1)) :
    (n.setAlarm who code mask).fits six owe := by
  unfold Node.setAlarm
  repeat' split
  all_goals first | (simp [hw]; done) | exact Node.respond_fits _ _ _ _ _ (fits_alarm n _ hw)

@[simp] theorem Node.readAlarm_fits (n : Node) (who : Req) {owe : Nat} (hw : n.fits six (owe + 1)) :
    (n.readAlarm who).fits six owe := Node.respond_fits _ _ _ _ _ (fits_alarm n _ hw)

/-! ## Commands of calls, signalling -/

@[simp] theorem Node.placeCall_fits (n : Node) (who : Req) (i number : Nat) (priority : Bool) {owe : Nat} (hw : n.fits six (owe + 1)) :
    (n.placeCall who i number priority).fits six owe := by
  unfold Node.placeCall
  dsimp only
  repeat' split
  all_goals simp (maxDischargeDepth := 40) [hw]

@[simp] theorem Node.answerId_fits (n : Node) (who : Req) (id : Nat) {owe : Nat} (hw : n.fits six (owe + 1)) :
    (n.answerId who id).fits six owe := by
  unfold Node.answerId
  split
  · simp [hw]
  · rename_i r h
    have hr : r < 8 := List.mem_range.1 (List.mem_of_find?_eq_some h)
    split
    · refine Node.respond_fits _ _ _ _ _ ?_
      split
      · exact hw
      · exact Node.answerCall_fits _ _ hr hw
    · simp [hw]

@[simp] theorem Node.hangupId_fits (n : Node) (who : Req) (id : Nat) {owe : Nat} (hw : n.fits six (owe + 1)) :
    (n.hangupId who id).fits six owe := by
  unfold Node.hangupId
  repeat' split
  all_goals simp [hw]

@[simp] theorem Node.readCalls_fits (n : Node) (who : Req) (view first count : Nat) {owe : Nat} (hw : n.fits six (owe + 1)) :
    (n.readCalls who view first count).fits six owe := by
  unfold Node.readCalls
  repeat' split
  all_goals simp [hw]

@[simp] theorem Node.answerClear_fits (n : Node) (p : Packet) (own : Nat) (why : Reason) {owe : Nat} (hw : n.fits six owe) :
    (Node.answerClear n p own why).fits six owe := by simp [Node.answerClear, hw]

@[simp] theorem Node.answerGone_fits (n : Node) (p : Packet) {owe : Nat} (hw : n.fits six owe) :
    (Node.answerGone n p).fits six owe := by simp [Node.answerGone, hw]

@[simp] theorem Node.firstRinging_fits (n : Node) (r : Nat) (p : Packet) {owe : Nat} (hw : n.fits six owe) :
    (Node.firstRinging n r p).fits six owe := by simp [Node.firstRinging, hw]

@[simp] theorem Node.takeRinging_fits (n : Node) (p : Packet) {owe : Nat} (hw : n.fits six owe) :
    (Node.takeRinging n p).fits six owe := by
  unfold Node.takeRinging
  dsimp only
  repeat' split
  all_goals simp [hw]

@[simp] theorem Node.connectCaller_fits (n : Node) (r : Nat) {owe : Nat} (hw : n.fits six owe) :
    (Node.connectCaller n r).fits six owe := by
  unfold Node.connectCaller
  dsimp only
  repeat' split
  all_goals simp (maxDischargeDepth := 40) [hw]

@[simp] theorem Node.takeAnswered_fits (n : Node) (p : Packet) {owe : Nat} (hw : n.fits six owe) :
    (Node.takeAnswered n p).fits six owe := by
  unfold Node.takeAnswered
  dsimp only
  repeat' split
  all_goals simp [hw]

@[simp] theorem Node.takeReject_fits (n : Node) (p : Packet) {owe : Nat} (hw : n.fits six owe) :
    (Node.takeReject n p).fits six owe := by
  unfold Node.takeReject
  dsimp only
  repeat' split
  all_goals simp [hw]

@[simp] theorem Node.takeClear_fits (n : Node) (p : Packet) {owe : Nat} (hw : n.fits six owe) :
    (Node.takeClear n p).fits six owe := by
  unfold Node.takeClear
  repeat' split
  all_goals simp [hw]

@[simp] theorem Node.rejectOffer_fits (n : Node) (p : Packet) (why : Reason) {owe : Nat} (hw : n.fits six owe) :
    (Node.rejectOffer n p why).fits six owe := by simp [Node.rejectOffer, hw]

@[simp] theorem Node.acceptOffer_fits (n : Node) (r i : Nat) (p : Packet) {owe : Nat} (hw : n.fits six owe) :
    (Node.acceptOffer n r i p).fits six owe := by simp [Node.acceptOffer, hw]

@[simp] theorem Node.offerTo_fits (n : Node) (i : Nat) (p : Packet) {owe : Nat} (hw : n.fits six owe) :
    (Node.offerTo n i p).fits six owe := by
  unfold Node.offerTo
  dsimp only
  repeat' split
  all_goals simp [hw]

@[simp] theorem Node.takeOffer_fits (n : Node) (p : Packet) {owe : Nat} (hw : n.fits six owe) :
    (Node.takeOffer n p).fits six owe := by
  unfold Node.takeOffer
  repeat' split
  all_goals simp [hw]

@[simp] theorem Node.handOff_fits (n : Node) {owe : Nat} (hw : n.fits six owe) : n.handOff.fits six owe := by
  unfold Node.handOff
  split
  · exact hw
  · rename_i e rest h
    split
    · rename_i hl
      refine Node.enqueue_fits _ _ (show n.load < 8 by omega) (Node.setSendList_fits n rest ?_ hw)
      exact sendListOk_sublist (h ▸ List.sublist_cons_self e rest) hw.2.2.2.2.2.1
    · exact hw

/-! ## Commands of status -/

@[simp] theorem Node.readPlayers_fits (n : Node) (who : Req) {owe : Nat} (hw : n.fits six (owe + 1)) :
    (n.readPlayers who).fits six owe := Node.respond_fits _ _ _ _ _ hw

@[simp] theorem Node.identify_fits (n : Node) (who : Req) {owe : Nat} (hw : n.fits six (owe + 1)) :
    (n.identify who).fits six owe := Node.respond_fits _ _ _ _ _ hw

@[simp] theorem Node.readStatus_fits (n : Node) (who : Req) {owe : Nat} (hw : n.fits six (owe + 1)) :
    (n.readStatus who).fits six owe := Node.respond_fits _ _ _ _ _ hw

@[simp] theorem Node.restartBinding_fits (n : Node) (id : Nat) {owe : Nat} (hw : n.fits six owe) :
    (Node.restartBinding n id).fits six owe := by unfold Node.restartBinding; split <;> simp [hw]

@[simp] theorem Node.restartJob_fits (n : Node) (p : Nat) {owe : Nat} (hw : n.fits six owe) :
    (Node.restartJob n p).fits six owe := by unfold Node.restartJob; split <;> simp [hw]

/-! ## Event rows of slots, zones, alarms -/

@[simp] theorem Node.startedSince_fits (n old : Node) {owe : Nat} (hw : n.fits six owe) : (n.startedSince old).fits six owe := by
  refine foldl_fits _ (fun _ _ h => Node.mark_fits _ _ h) _ _ ?_
  split <;> exact hw

@[simp] theorem Node.autoEndRow_fits (n : Node) (id : Nat) {owe : Nat} (hw : n.fits six owe) :
    (Node.autoEndRow n id).fits six owe := by unfold Node.autoEndRow; split <;> simp [hw]

@[simp] theorem Node.periodEndEarly_fits (n : Node) (a : Nat) {owe : Nat} (hw : n.fits six owe) :
    (Node.periodEndEarly n a).fits six owe := by simp [Node.periodEndEarly, hw]

@[simp] theorem Node.periodsEnd_fits (n : Node) {owe : Nat} (hw : n.fits six owe) : n.periodsEnd.fits six owe := by
  have h1 := foldl_fits Node.periodEndEarly (fun _ _ h => Node.periodEndEarly_fits _ _ h) n.periodsDue n hw
  unfold Node.periodsEnd
  dsimp only
  split
  · exact h1
  · exact h1

@[simp] theorem Node.voiceLast_fits (n : Node) {owe : Nat} (hw : n.fits six owe) :
    (Node.voiceLast n).fits six owe := by unfold Node.voiceLast; split <;> simp (maxDischargeDepth := 40) [hw]

@[simp] theorem Node.voiceEndRow_fits (n : Node) {owe : Nat} (hw : n.fits six owe) :
    (Node.voiceEndRow n).fits six owe := by unfold Node.voiceEndRow; split <;> simp (maxDischargeDepth := 40) [hw]

/-! ## Event rows of calls -/

@[simp] theorem Node.pathRow_fits (n : Node) (r : Nat) {owe : Nat} (hw : n.fits six owe) :
    (Node.pathRow n r).fits six owe := by unfold Node.pathRow; split <;> simp [hw]

end Sys2Proof.Machine
end

