-- ==== Sys2Proof/Laws/BoundsSteps.lean ====
section
/-! SUPPORT. The bounds of stacks and queues (Bounds.lean) through the resets, the loads, the ports, the frames, the frame time,
the flash phases, the commands and the packets. What a reset leaves owes nothing. -/

namespace Sys2Proof.Machine

/-! ## The ring -/

@[simp] theorem Node.storeSamples_fits (n : Node) (h : Headers) {owe : Nat} (hw : n.fits six owe) :
    (n.storeSamples h).fits six owe := hw

@[simp] theorem Node.hearsWaiting_fits (n : Node) {owe : Nat} (hw : n.fits six owe) : n.hearsWaiting.fits six owe := by
  unfold Node.hearsWaiting
  repeat' split
  all_goals exact hw

@[simp] theorem Node.forwardFrame_fits (n : Node) (p : Port) (f : Frame) {owe : Nat} (hw : n.fits six owe) :
    (n.forwardFrame p f).fits six owe := by
  unfold Node.forwardFrame
  dsimp only
  repeat' split
  all_goals exact hw

@[simp] theorem Node.startingFrame_fits (n : Node) (p : Port) (f : Frame) {owe : Nat} (hw : n.fits six owe) :
    (n.startingFrame p f).fits six owe := by
  unfold Node.startingFrame
  dsimp only
  refine Node.forwardFrame_fits _ _ _ ?_
  repeat' split
  all_goals exact hw

@[simp] theorem Node.leave_fits (n : Node) {owe : Nat} (hw : n.fits six owe) : n.leave.fits six owe :=
  Node.alarmEvent_fits _ (show ({ n with mgmt := _ } : Node).fits six owe from hw)

@[simp] theorem Node.yieldRole_fits (n : Node) {owe : Nat} (hw : n.fits six owe) : n.yieldRole.fits six owe :=
  Node.loseAllHeld_fits _ (Node.relayEmpty_fits _ (Node.emptyRegister_fits _ hw))

/-- The entries of a resumption (R38). -/
theorem Node.resumeTable_fits (n : Node) {lim : Nat → Nat} {owe : Nat} (hw : n.fits lim owe) :
    ({ n with slots := { n.slots with table := n.slots.table.map SlotEntry.resume } } : Node).fits lim owe := hw

@[simp] theorem Node.resume_fits (n : Node) {owe : Nat} (hw : n.fits six owe) : n.resume.fits six owe := by
  have h1 := Node.loseAllHeld_fits _ (Node.relayEmpty_fits _ (Node.emptyRegister_fits
    { n with ring := { n.ring with role := true, turnRepeat := false, quiet := 48000 } } hw))
  unfold Node.resume
  dsimp only
  refine foldl_fits _ (fun _ c h => Node.decidePending_fits _ c h) _ _ ?_
  refine foldl_fits _ (fun _ (c : Claim) h => Node.tell_fits _ c.user .noSlot h) _ _ ?_
  exact Node.resumeTable_fits _ h1

@[simp] theorem Node.resumeStep_fits (n : Node) {owe : Nat} (hw : n.fits six owe) : n.resumeStep.fits six owe := by
  unfold Node.resumeStep
  split
  · exact Node.resume_fits n hw
  · exact hw

@[simp] theorem Node.changeWrap_fits (n : Node) (w : WrapState) {owe : Nat} (hw : n.fits six owe) :
    (n.changeWrap w).fits six owe := by
  unfold Node.changeWrap
  dsimp only
  split
  · exact hw
  · refine Node.generalNotice_fits _ _ _ (Node.failAllClaims_fits _ ?_)
    split <;> exact hw

@[simp] theorem Node.applyPorts_fits (n : Node) {owe : Nat} (hw : n.fits six owe) : n.applyPorts.fits six owe :=
  Node.changeWrap_fits _ _ (show ({ n with ring := _ } : Node).fits six owe from hw)

@[simp] theorem Node.portTick_fits (n : Node) (p : Port) (rx : Rx) {owe : Nat} (hw : n.fits six owe) :
    (n.portTick p rx).fits six owe := by
  unfold Node.portTick Node.turnMode
  dsimp only
  repeat' split
  all_goals exact hw

@[simp] theorem Node.portTickIf_fits (n : Node) (p : Port) (rx : Option Rx) {owe : Nat} (hw : n.fits six owe) :
    (n.portTickIf p rx).fits six owe := by
  cases rx with
  | none => exact hw
  | some rx => exact Node.portTick_fits n p rx hw

@[simp] theorem Node.portFrame_fits (n : Node) (west east : Option Rx) {owe : Nat} (hw : n.fits six owe) :
    (n.portFrame west east).fits six owe :=
  Node.applyPorts_fits _ (Node.portTickIf_fits _ _ _ (Node.portTickIf_fits _ _ _ hw))

@[simp] theorem Node.onePort_fits (n : Node) (p : Port) (rx : Rx) {owe : Nat} (hw : n.fits six owe) :
    (n.onePort p rx).fits six owe := by
  cases p <;> exact Node.portFrame_fits _ _ _ hw

/-! ## Flash phases -/

@[simp] theorem Node.setFlash_fits (n : Node) (m : List Host.Cell) {lim : Nat → Nat} {owe : Nat} (hw : n.fits lim owe) :
    (n.setFlash m).fits lim owe := hw

@[simp] theorem Node.programOp_fits (n : Node) (op : FlashOp) {lim : Nat → Nat} {owe : Nat} (hw : n.fits lim owe) :
    (n.programOp op).fits lim owe := hw

@[simp] theorem Node.eraseOp_fits (n : Node) (op : FlashOp) {lim : Nat → Nat} {owe : Nat} (hw : n.fits lim owe) :
    (n.eraseOp op).fits lim owe := hw

@[simp] theorem Node.deliverBatch_fixed (n : Node) (p : Nat) (stalled : Nat → Bool) : (n.deliverBatch p stalled).fixed = n.fixed := by
  unfold Node.deliverBatch
  dsimp only
  repeat' split
  all_goals simp

@[simp] theorem Node.deliverFirst_fixed (n : Node) (p : Nat) : (n.deliverFirst p).fixed = n.fixed := Node.deliverBatch_fixed _ _ _

@[simp] theorem Node.openJob_fixed (n : Node) (who : Req) (a : PlayArgs) (p : Nat) (e : Entry) :
    (n.openJob who a p e).fixed = n.fixed := by simp [Node.openJob]

@[simp] theorem Node.pushJob_fixed (n : Node) (p : Nat) (a : PlayArgs) : (n.pushJob p a).node.fixed = n.fixed := by
  unfold Node.pushJob
  dsimp only
  split <;> simp

@[simp] theorem Node.gateJob_fixed (n : Node) (p : Nat) (a : PlayArgs) : (n.gateJob p a).fixed = n.fixed := by
  unfold Node.gateJob
  split <;> simp

/-- A waiting PLAY or STOP carried out leaves the flash store and its queue alone. -/
theorem Node.resumeWait_fixed (n : Node) (x : PlayWait) : (n.resumeWait x).fixed = n.fixed := by
  cases x with
  | play who a =>
    show (n.playNow who a).fixed = _
    unfold Node.playNow
    dsimp only
    repeat' split
    all_goals simp
  | stop who p =>
    show (n.stopNow who p).fixed = _
    unfold Node.stopNow
    dsimp only
    repeat' split
    all_goals simp

/-- The readers of a bank served leave the operation queue alone. -/
theorem Node.serveBank_ops (n : Node) (bank : Nat) : (n.serveBank bank).library.ops = n.library.ops := by
  have h1 : ∀ m : Node, m.resumeWaits.library = m.library := fun m => by
    have := foldl_fixed _ Node.resumeWait_fixed m.players.waits (m.setWaits [])
    exact congrArg Fixed.library this
  have h2 : ((n.library.readWaits.filter fun w => bankOf w.sector = bank).foldl Node.answerRead
      (n.setReadWaits (n.library.readWaits.filter fun w => bankOf w.sector ≠ bank))).library.ops = n.library.ops := by
    have := foldl_fixed _ (fun n (w : ReadWait) => show (n.answerRead w).fixed = n.fixed from Node.respond_fixed n _ _ _ _)
      (n.library.readWaits.filter fun w => bankOf w.sector = bank)
      (n.setReadWaits (n.library.readWaits.filter fun w => bankOf w.sector ≠ bank))
    exact congrArg (fun x => x.library.ops) this
  unfold Node.serveBank
  dsimp only
  split
  · rw [h1, h2]
  · exact h2

theorem Node.completePhase_fits (n : Node) (op : FlashOp) {owe : Nat} (ho : n.library.ops ≠ []) (hw : n.fits six owe) :
    (n.completePhase op).fits six owe := by
  have hl : ∀ x : FlashOp, (x :: n.library.ops.tail).length = n.library.ops.length := fun x => by
    cases h : n.library.ops with
    | nil => exact absurd h ho
    | cons a l => rfl
  have ht : ∀ m : Node, m.library.ops.length = n.library.ops.length → ∀ x : FlashOp,
      (x :: m.library.ops.tail).length = m.library.ops.length := fun m hm x => by
    have := List.length_pos_of_ne_nil ho
    simp only [List.length_cons, List.length_tail]
    omega
  unfold Node.completePhase
  dsimp only
  split
  · exact hw
  · have hf : ((n.eraseOp op).setOps ({ op with phase := .waiting } :: n.library.ops.tail)).fits six owe :=
      Node.setOps_fits _ _ (hl _) (Node.eraseOp_fits _ _ hw)
    refine Node.setOps_fits _ _ (ht _ ?_ _) (Node.serveBank_fits _ _ hf)
    rw [Node.serveBank_ops]
    exact hl _
  · exact Node.considerHead_fits _ (Node.serveBank_fits _ _ (Node.finishOp_fits _ _ _ _ ho (Node.eraseOp_fits _ _ hw)))
  · exact Node.considerHead_fits _ (Node.serveBank_fits _ _ (Node.finishWrite_fits _ _ ho (Node.programOp_fits _ _ hw)))

theorem Node.abandonPhase_ops (n : Node) (op : FlashOp) : (n.abandonPhase op).library.ops = n.library.ops := by
  unfold Node.abandonPhase
  generalize Memory.abandonErase n.library.flash op.sector n.freeCount = me
  generalize Memory.abandonWrite n.library.flash n.freeCount 0 (flashAddress op.sector op.offset) op.data = mw
  split <;> rfl

@[simp] theorem Node.abandonPhase_fits (n : Node) (op : FlashOp) {lim : Nat → Nat} {owe : Nat} (hw : n.fits lim owe) :
    (n.abandonPhase op).fits lim owe := by
  unfold Node.abandonPhase
  generalize Memory.abandonErase n.library.flash op.sector n.freeCount = me
  generalize Memory.abandonWrite n.library.flash n.freeCount 0 (flashAddress op.sector op.offset) op.data = mw
  split <;> exact hw

@[simp] theorem Node.siglockRead_fits (n : Node) {owe : Nat} (hw : n.fits six owe) : n.siglockRead.fits six owe := by
  unfold Node.siglockRead
  split
  · exact hw
  rename_i op _ h
  split
  · refine Node.considerHead_fits _ (Node.serveBank_fits _ _ (Node.finishOp_fits _ _ _ _ ?_ (Node.abandonPhase_fits _ _ hw)))
    rw [Node.abandonPhase_ops, h]
    simp
  · exact hw

@[simp] theorem Node.phaseTick_fits (n : Node) {owe : Nat} (hw : n.fits six owe) : n.phaseTick.fits six owe := by
  unfold Node.phaseTick
  split
  · exact hw
  rename_i op rest h
  repeat' split
  · exact hw
  · exact Node.completePhase_fits _ _ (by simp [h]) hw
  · exact Node.setOps_fits _ _ (by simp [h]) hw

@[simp] theorem Node.phaseRow_fits (n : Node) {owe : Nat} (hw : n.fits six owe) : n.phaseRow.fits six owe := by
  unfold Node.phaseRow
  split
  · rename_i op h
    have ho : n.library.ops ≠ [] := by
      intro e
      simp [Node.phaseDue, e] at h
    exact Node.mark_fits _ _ (Node.startedSince_fits _ _ (Node.completePhase_fits _ _ ho hw))
  · exact hw

@[simp] theorem Node.siglockRow_fits (n : Node) {owe : Nat} (hw : n.fits six owe) : n.siglockRow.fits six owe := by
  have h1 : ({ n with pins := { n.pins with siglock := true } } : Node).fits six owe := hw
  unfold Node.siglockRow
  dsimp only
  split
  · exact h1
  split
  · exact Node.mark_fits _ _ (Node.startedSince_fits _ _ (Node.siglockRead_fits _ h1))
  · exact h1

@[simp] theorem Node.flashStep_fits (n : Node) {owe : Nat} (hw : n.fits six owe) : n.flashStep.fits six owe := by
  unfold Node.flashStep
  repeat' split
  · exact Node.siglockRead_fits _ hw
  · exact hw
  · exact Node.phaseTick_fits _ hw

/-! ## Resets and loads -/

/-- Reset values are within the bounds (R178). -/
theorem Node.reset_fits : Node.reset.fits six 0 := (Node.within_iff _ _).1 (by decide)

@[simp] theorem Node.loadSignalSector_fits (n : Node) {lim : Nat → Nat} {owe : Nat} (hw : n.fits lim owe) :
    n.loadSignalSector.fits lim owe := by
  unfold Node.loadSignalSector
  generalize imageTaken n.signalImage 0x51 = taken
  generalize SignalSector.ofBytes n.signalImage = sector
  exact hw

/-- What a reset leaves is within the bounds, whatever went before (R178, R195). -/
theorem Node.resetWith_fits (n : Node) (cause : ResetCause) (pins : Pins) (held : Bool) :
    (n.resetWith cause pins held).fits six 0 := Node.loadSignalSector_fits _ Node.reset_fits

theorem Node.restartLinks_fits (n old : Node) : (n.restartReset.withLinks old).fits six 0 :=
  Node.withLinks_fits _ _ (Node.resetWith_fits _ _ _ _)

/-- Settings written into the zone records and classes keep the bounds. -/
theorem Node.setZones_fits (n : Node) (zs : List Zone) (cs : List ClassRecord)
    (hz : ∀ z : Nat, zs[z]?.map Zone.stack = n.mixer.zones[z]?.map Zone.stack) {lim : Nat → Nat} {owe : Nat}
    (hw : n.fits lim owe) :
    ({ n with mixer := { n.mixer with zones := zs, classes := cs } } : Node).fits lim owe := by
  refine Node.fits_of (n := n) (fun z => ?_) rfl rfl rfl rfl rfl rfl rfl hw
  have h := hz z
  unfold Node.stack Node.zone
  simp only [List.getD_eq_getElem?_getD]
  cases h1 : zs[z]? <;> cases h2 : n.mixer.zones[z]? <;> simp_all

@[simp] theorem Node.applyConfig_fits (n : Node) (bs : List Byte) {lim : Nat → Nat} {owe : Nat} (hw : n.fits lim owe) :
    (n.applyConfig bs).fits lim owe := by
  have h := Node.setZones_fits n (n.mixer.zones.mapIdx fun z r => r.load (slice bs (2 + 8 * z) 8))
    (n.mixer.classes.mapIdx fun c r => if c < 5 then ClassRecord.ofBytes c (slice bs (130 + 6 * c) 6) else r)
    (fun z => by cases h : n.mixer.zones[z]? <;> simp [List.getElem?_mapIdx, h, Zone.load]) hw
  exact h

@[simp] theorem Node.applyDefaults_fits (n : Node) {lim : Nat → Nat} {owe : Nat} (hw : n.fits lim owe) :
    n.applyDefaults.fits lim owe :=
  Node.setZones_fits n (n.mixer.zones.map Zone.loadDefaults) _
    (fun z => by cases h : n.mixer.zones[z]? <;> simp [h, Zone.loadDefaults]) hw

@[simp] theorem Node.loadConfig_fits (n : Node) {lim : Nat → Nat} {owe : Nat} (hw : n.fits lim owe) :
    n.loadConfig.fits lim owe := by
  unfold Node.loadConfig
  dsimp only
  split
  · exact Node.applyConfig_fits n _ hw
  · exact Node.applyDefaults_fits n hw

@[simp] theorem Node.startStep_fits (n : Node) {owe : Nat} (hw : n.fits six owe) : n.startStep.fits six owe := by
  unfold Node.startStep
  repeat' split
  · exact Node.loadConfig_fits n hw
  · exact hw
  · exact Node.leave_fits n hw
  · exact hw
  · exact hw

@[simp] theorem Node.release_fits (n : Node) (hw : n.fits six 0) : n.release.fits six 0 := by
  unfold Node.release
  split
  · exact Node.resetWith_fits _ _ _ _
  · exact hw

@[simp] theorem Node.restartNow_fits (n : Node) (hw : n.fits six 0) : n.restartNow.fits six 0 := by
  unfold Node.restartNow
  split
  · exact Node.restartLinks_fits _ _
  · exact hw

@[simp] theorem Node.restartStep_fits (n : Node) (hw : n.fits six 0) : n.restartStep.fits six 0 := by
  unfold Node.restartStep
  split
  · exact Node.restartLinks_fits _ _
  · exact hw

@[simp] theorem Node.configNow_fits (n : Node) {owe : Nat} (hw : n.fits six owe) : n.configNow.fits six owe := by
  unfold Node.configNow
  split
  · exact Node.loadConfig_fits n hw
  · exact hw

@[simp] theorem Node.leaveNow_fits (n : Node) {owe : Nat} (hw : n.fits six owe) : n.leaveNow.fits six owe := by
  unfold Node.leaveNow
  split
  · exact Node.leave_fits n hw
  · exact hw

/-! ## The control lane and frames -/

@[simp] theorem Node.receive_fits (n : Node) (whole : Bool) (all lane : List Byte) {owe : Nat} (hw : n.fits six owe) :
    (n.receive whole all lane).node.fits six owe := by
  unfold Node.receive
  dsimp only
  repeat' split
  all_goals exact hw

@[simp] theorem Node.laneEnd_fits (n : Node) (f : Follow) (lane : List Byte) {owe : Nat} (hw : n.fits six owe) :
    (n.laneEnd f lane).node.fits six owe := by
  have h1 : (n.setFollow none).fits six owe := hw
  unfold Node.laneEnd
  dsimp only
  split
  · exact h1
  · exact Node.receive_fits _ _ _ _ h1
  · exact h1
  · split
    · exact Node.deliveryOutcome_fits _ _ _ h1
    · exact h1
  · split
    · exact Node.popOutbound_fits _ h1
    · exact h1

@[simp] theorem Node.laneFrame_fits (n : Node) (seq : Nat) (lane : List Byte) {owe : Nat} (hw : n.fits six owe) :
    (n.laneFrame seq lane).node.fits six owe := by
  unfold Node.laneFrame
  repeat' split
  · unfold Node.laneDue
    split
    · exact hw
    · exact Node.laneEnd_fits _ _ _ hw
  · exact Node.laneStart_fits _ _ _ hw
  · exact hw
  · exact Node.laneStart_fits _ _ _ hw
  · exact hw

@[simp] theorem Node.slaveFrame_fits (n : Node) (p : Port) (f : Frame) (hw : n.fits six 0) :
    (n.slaveFrame p f).fits six 0 := by
  unfold Node.slaveFrame
  dsimp only
  split
  · split
    · exact Node.restartLinks_fits _ _
    · exact Node.sendProcessed_fits _ _ _ (Node.laneFrame_fits _ _ _ (Node.pathCounts_fits _ _ (Node.freeRuns_fits _ _
        (Node.slotFrame_fits _ _ (Node.readWord_fits _ _ (Node.storeSamples_fits _ _ hw))))))
  · exact Node.sendProcessed_fits _ _ _ (Node.pathCounts_fits _ _ (Node.freeRuns_fits _ _
      (Node.readWord_fits _ _ (Node.storeSamples_fits _ _ hw))))

@[simp] theorem Node.relayFrame_fits (n : Node) (p : Port) (f : Frame) (hw : n.fits six 0) :
    (n.relayFrame p f).fits six 0 := by
  unfold Node.relayFrame
  split
  · exact Node.slaveFrame_fits n p f hw
  · exact Node.heldFrame_fits n p f hw

@[simp] theorem Node.returned_fits (n : Node) (f : Frame) {owe : Nat} (hw : n.fits six owe) : (n.returned f).fits six owe := by
  unfold Node.returned
  dsimp only
  split
  · exact Node.relayFeed_fits _ _ _ _ (Node.laneFrame_fits _ _ _ (Node.storeSamples_fits _ _
      (Node.readWord_fits _ _ (Node.registerFrame_fits _ _ hw))))
  · exact Node.relayFeed_fits _ _ _ _ (Node.laneMissed_fits _ _ hw)

@[simp] theorem Node.masterFrame_fits (n : Node) (p : Port) (f : Frame) (hw : n.fits six 0) :
    (n.masterFrame p f).fits six 0 := by
  unfold Node.masterFrame
  repeat' split
  · exact Node.relayFrame_fits _ _ _ (Node.yieldRole_fits _ (Node.hearForeign_fits _ (Node.dualMaster_fits _ _ _ hw)))
  · exact Node.discardFrame_fits _ _ (Node.hearForeign_fits _ (Node.dualMaster_fits _ _ _ hw))
  · exact Node.returned_fits _ _ hw
  · exact Node.discardFrame_fits _ _ hw

@[simp] theorem Node.takeFrame_fits (n : Node) (p : Port) (f : Frame) (hw : n.fits six 0) : (n.takeFrame p f).fits six 0 := by
  have h1 : ({ n with ring := n.ring.setArrival p (.taken (n.holdsTime f)) } : Node).fits six 0 := hw
  unfold Node.takeFrame
  dsimp only
  repeat' split
  · exact Node.forwardFrame_fits _ _ _ h1
  · exact Node.startingFrame_fits _ _ _ h1
  · exact Node.masterFrame_fits _ _ _ h1
  · exact Node.relayFrame_fits _ _ _ h1
  · exact Node.relayFrame_fits _ _ _ h1

@[simp] theorem Node.processWaiting_fits (n : Node) (hw : n.fits six 0) : n.processWaiting.fits six 0 := by
  unfold Node.processWaiting
  split
  · exact Node.takeFrame_fits _ _ _ hw
  · exact hw

@[simp] theorem Node.returnedWaiting_fits (n : Node) (hw : n.fits six 0) : n.returnedWaiting.fits six 0 := by
  unfold Node.returnedWaiting
  repeat' split
  · exact Node.takeFrame_fits _ _ _ hw
  · exact hw
  · exact hw

/-! ## The frame time -/

@[simp] theorem Node.generate_fits (n : Node) (hw : n.fits six 0) : n.generate.fits six 0 := by
  unfold Node.generate
  dsimp only
  split
  · exact Node.restartLinks_fits _ _
  · exact Node.sendGenerated_fits _ _ _ (Node.generateLane_fits _ _ (Node.readGenerated_fits _ _ hw))

@[simp] theorem Node.ringTick_fits (n : Node) (hw : n.fits six 0) : n.ringTick.fits six 0 := by
  have h1 : (if n.missingAt.isSome = true then n.missed else n).hearsWaiting.fits six 0 := by
    refine Node.hearsWaiting_fits _ ?_
    split
    · exact Node.missed_fits _ hw
    · exact hw
  unfold Node.ringTick
  dsimp only
  split
  · exact Node.startingLinks_fits _ hw
  generalize (if n.missingAt.isSome = true then n.missed else n).hearsWaiting = m at h1 ⊢
  split
  · exact Node.generate_fits _ h1
  · exact Node.slaveLinks_fits _ h1

@[simp] theorem Node.runFrame_fits (n : Node) (hw : n.fits six 0) : n.runFrame.fits six 0 := by
  have h1 : n.counts.resumeStep.sounds.flashStep.periodStep.ringTick.fits six 0 :=
    Node.ringTick_fits _ (Node.periodStep_fits _ (Node.flashStep_fits _ (Node.sounds_fits _ (Node.resumeStep_fits _
      (Node.counts_fits _ hw)))))
  unfold Node.runFrame
  dsimp only
  generalize n.counts.resumeStep.sounds.flashStep.periodStep.ringTick = b at h1 ⊢
  split
  · exact Node.endFrame_fits _ _ (Node.restartStep_fits _ (Node.timerEvents_fits _ (Node.contactStep_fits _
      (Node.computeZones_fits _ (foldl_fits _ (fun _ p h => Node.playerEnd_fits _ p h) _ _ h1)))))
  · exact Node.endFrame_fits _ _ h1

@[simp] theorem Node.heldTick_fits (n : Node) (pins : Pins) {owe : Nat} (hw : n.fits six owe) :
    (n.heldTick pins).fits six owe :=
  Node.endArrivals_fits _ (Node.startingLinks_fits _ (show ({ n with pins := pins } : Node).fits six owe from hw))

@[simp] theorem Node.frameTick_fits (n : Node) (pins : Pins) (hw : n.fits six 0) : (n.frameTick pins).fits six 0 := by
  have h1 : (n.beginFrame pins).startStep.fits six 0 :=
    Node.startStep_fits _ (show (n.beginFrame pins).fits six 0 from hw)
  unfold Node.frameTick
  dsimp only
  repeat' split
  · exact Node.heldTick_fits n pins hw
  · exact Node.runFrame_fits _ h1
  · exact Node.endFrame_fits _ _ (Node.ringTick_fits _ h1)

/-! ## Commands and packets -/

@[simp] theorem Node.readPorts_fits (n : Node) (who : Req) {owe : Nat} (hw : n.fits six (owe + 1)) :
    (n.readPorts who).fits six owe := Node.respond_fits _ _ _ _ _ (show ({ n with ring := _ } : Node).fits six _ from hw)

@[simp] theorem Node.setRingParameters_fits (n : Node) (who : Req) (a b c : Nat) {owe : Nat} (hw : n.fits six (owe + 1)) :
    (n.setRingParameters who a b c).fits six owe :=
  Node.respond_fits _ _ _ _ _ (show ({ n with ring := _ } : Node).fits six _ from hw)

@[simp] theorem Node.zoneWritten_fits (n : Node) (z logical : Nat) (f : FireZone) (k : ZoneKind) (floor : Int) {owe : Nat}
    (hw : n.fits six owe) : (n.zoneWritten z logical f k floor).fits six owe := by
  have h1 : (n.modZone z fun r => r.written logical f k floor).fits six owe := 
    Node.modZone_fits n z (fun r => r.written logical f k floor) (fun _ => rfl) hw
  unfold Node.zoneWritten
  dsimp only
  split
  · exact h1
  · exact Node.alarmEvent_fits _ h1

@[simp] theorem Node.writeZone_fits (n : Node) (who : Req) (z logical fire kind : Nat) (floor : Int) {owe : Nat}
    (hw : n.fits six (owe + 1)) : (n.writeZone who z logical fire kind floor).fits six owe := by
  unfold Node.writeZone
  dsimp only
  repeat' split
  all_goals first
    | exact Node.respond_fits _ _ _ _ _ hw
    | exact Node.respond_fits _ _ _ _ _ (Node.zoneWritten_fits _ _ _ _ _ _ hw)

@[simp] theorem Node.setVolume_fits (n : Node) (who : Req) (logical : Nat) (level : Int) {owe : Nat}
    (hw : n.fits six (owe + 1)) : (n.setVolume who logical level).fits six owe := by
  have h := Node.setZones_fits n (n.mixer.zones.map (Zone.retargetVolume logical (clampInt (-384) 0 level))) n.mixer.classes
    (fun z => by
      cases h : n.mixer.zones[z]? with
      | none => simp [h]
      | some r => simp only [List.getElem?_map, h, Option.map_some, Zone.retargetVolume]; split <;> rfl) hw
  unfold Node.setVolume
  dsimp only
  repeat' split
  · exact Node.respond_fits _ _ _ _ _ hw
  · exact Node.respond_fits _ _ _ _ _ hw
  · exact Node.respond_fits _ _ _ _ _ h

@[simp] theorem Node.writeStation_fits (n : Node) (who : Req) (a b c d : Nat) (e : Bool) {owe : Nat}
    (hw : n.fits six (owe + 1)) : (n.writeStation who a b c d e).fits six owe := by
  unfold Node.writeStation
  dsimp only
  repeat' split
  all_goals exact Node.respond_fits _ _ _ _ _ hw

@[simp] theorem Node.setNoticeDestination_fits (n : Node) (who : Req) (a : Nat) {owe : Nat} (hw : n.fits six (owe + 1)) :
    (n.setNoticeDestination who a).fits six owe := by
  unfold Node.setNoticeDestination
  split
  all_goals exact Node.respond_fits _ _ _ _ _ hw

@[simp] theorem Node.setGroups_fits (n : Node) (who : Req) (a : Mask16) {owe : Nat} (hw : n.fits six (owe + 1)) :
    (n.setGroups who a).fits six owe := by
  unfold Node.setGroups
  split
  all_goals exact Node.respond_fits _ _ _ _ _ hw

@[simp] theorem Node.setOutput_fits (n : Node) (who : Req) (a b : Nat) (c : Bool) (d : Mask16) (e : Byte) (f : Nat) {owe : Nat}
    (hw : n.fits six (owe + 1)) : (n.setOutput who a b c d e f).fits six owe := by
  unfold Node.setOutput
  dsimp only
  repeat' split
  all_goals exact Node.respond_fits _ _ _ _ _ hw

@[simp] theorem Node.takeRestart_fits (n : Node) (who : Req) {owe : Nat} (hw : n.fits six (owe + 1)) :
    (n.takeRestart who).fits six owe := by
  have h1 : ([0, 1].foldl Node.restartJob ((List.range 64).foldl Node.restartBinding n)).fits six (owe + 1) :=
    foldl_fits _ (fun _ p h => Node.restartJob_fits _ p h) _ _ (foldl_fits _ (fun _ id h => Node.restartBinding_fits _ id h) _ _ hw)
  unfold Node.takeRestart
  dsimp only
  generalize [0, 1].foldl Node.restartJob ((List.range 64).foldl Node.restartBinding n) = m at h1 ⊢
  exact Node.respond_fits m _ _ _ _ h1

/-- The work of a block uses up the response owed by its command, or holds it (R186). -/
theorem Node.manage_fits (n : Node) (i : Instr) {owe : Nat} (hw : n.fits six (owe + 1)) : (n.manage i).fits six owe := by
  unfold Node.manage
  split
  all_goals first
    | with_reducible exact Node.fits_mono (Nat.le_succ owe) hw
    | with_reducible exact Node.takeRestart_fits _ _ hw
    | (simp only [hw, Node.readPorts_fits, Node.setRingParameters_fits, Node.sendTalk_fits, Node.unsendTalk_fits, Node.readSlots_fits,
        Node.writeZone_fits, Node.setVolume_fits, Node.readZone_fits, Node.bindSource_fits, Node.unbindId_fits, Node.readBinding_fits,
        Node.writeClass_fits, Node.readClass_fits, Node.readStack_fits, Node.setAlarm_fits, Node.readAlarm_fits, Node.writeStation_fits,
        Node.placeCall_fits, Node.answerId_fits, Node.hangupId_fits, Node.readCalls_fits, Node.takePlay_fits, Node.takeStop_fits,
        Node.readPlayers_fits, Node.takeErase_fits, Node.takeWrite_fits, Node.takeRead_fits, Node.takeSave_fits, Node.takeReload_fits,
        Node.identify_fits, Node.readStatus_fits, Node.setNoticeDestination_fits, Node.setGroups_fits, Node.setOutput_fits])

theorem Node.dispatch_fits (n : Node) (p : Packet) (who : Req) {owe : Nat} (hw : n.fits six (owe + 1)) :
    (n.dispatch p who).fits six owe := by
  unfold Node.dispatch
  split
  · exact Node.manage_fits _ _ hw
  all_goals exact Node.respond_fits _ _ _ _ _ hw

/-- A reservation is made where the outbound load leaves room for it (R186). -/
theorem Node.reserve_fits (n : Node) {owe : Nat} (hl : n.load < 8) (hw : n.fits six owe) : n.reserve.fits six (owe + 1) := by
  have h4 := hw.2.2.2.1
  refine ⟨hw.1, hw.2.1, hw.2.2.1, ?_, ?_, hw.2.2.2.2.2⟩
  · show n.heldResponses + (owe + 1) ≤ n.lane.reservations + 1
    omega
  · show n.lane.outbound.length + (n.lane.reservations + 1) ≤ 8
    unfold Node.load at hl
    omega

@[simp] theorem Node.popInbound_fits (n : Node) {lim : Nat → Nat} {owe : Nat} (hw : n.fits lim owe) :
    n.popInbound.fits lim owe := hw

/-- A command whose block uses up its response keeps the bounds, taken or not (R186, R187). -/
theorem Node.taken_fits (n : Node) (who : Req) {work : Node → Node}
    (hk : ∀ m : Node, m.fits six 1 → (work m).fits six 0) (hw : n.fits six 0) : (n.taken who work).fits six 0 := by
  unfold Node.taken
  repeat' split
  · rename_i h _
    simp only [Node.takesCommands, Bool.and_eq_true, decide_eq_true_eq] at h
    exact hk _ (Node.reserve_fits _ h.2 hw)
  · exact hw
  · exact hw

@[simp] theorem Node.takeHead_fits (n : Node) (hw : n.fits six 0) : n.takeHead.fits six 0 := by
  unfold Node.takeHead
  dsimp only
  repeat' split
  all_goals first
    | exact hw
    | exact Node.taken_fits _ _ (fun m hm => Node.dispatch_fits _ _ _ hm) hw

theorem Node.takeSignalling_fits (n : Node) (kind : Nat) {work : Node → Packet → Node} {owe : Nat}
    (hk : ∀ (m : Node) (p : Packet), m.fits six owe → (work m p).fits six owe) (hw : n.fits six owe) :
    (n.takeSignalling kind work).fits six owe := by
  unfold Node.takeSignalling
  repeat' split
  · exact hw
  · exact hk _ _ hw
  · exact hw

/-- The send list's bounds leave at most 24 packets in it (R127). -/
theorem sendListOk_length (l : List SendEntry) (h : sendListOk l = true) : l.length ≤ 24 := by
  simp only [sendListOk, Bool.and_eq_true, decide_eq_true_eq, List.all_eq_true] at h
  obtain ⟨⟨hd, ha⟩, hu⟩ := h
  have h1 : l.length = untiedCount l + (tiedKeys l).length := by
    clear hd ha hu
    induction l with
    | nil => rfl
    | cons e l ih => cases ht : e.tie <;> simp [untiedCount, tiedKeys, ht] at ih ⊢ <;> omega
  have h2 : (tiedKeys l).length ≤ ((List.range 8).product [true, false]).length := by
    refine List.Subperm.length_le (List.Nodup.subperm hd ?_)
    intro x hx
    have := ha x hx
    rcases x with ⟨a, b⟩
    cases b <;> simpa [List.product] using this
  simp [List.product] at h2
  omega

end Sys2Proof.Machine
end

