-- ==== Sys2Proof/Laws/State.lean ====
section
/-! SUPPORT. One lemma for each block and each named update of a part: the block an update writes, and the blocks it leaves.
Then what a record reads as after an update of itself or of another. -/

namespace Sys2Proof.Machine

variable (n : Node)

/-! ### modZone -/

@[simp] theorem Node.modZone_ring (z : Nat) (f : Zone → Zone) : (n.modZone z f).ring = n.ring := rfl
@[simp] theorem Node.modZone_slots (z : Nat) (f : Zone → Zone) : (n.modZone z f).slots = n.slots := rfl
@[simp] theorem Node.modZone_mixer (z : Nat) (f : Zone → Zone) :
    (n.modZone z f).mixer = { n.mixer with zones := n.mixer.zones.modify z f } := rfl
@[simp] theorem Node.modZone_alarm (z : Nat) (f : Zone → Zone) : (n.modZone z f).alarm = n.alarm := rfl
@[simp] theorem Node.modZone_calls (z : Nat) (f : Zone → Zone) : (n.modZone z f).calls = n.calls := rfl
@[simp] theorem Node.modZone_players (z : Nat) (f : Zone → Zone) : (n.modZone z f).players = n.players := rfl
@[simp] theorem Node.modZone_library (z : Nat) (f : Zone → Zone) : (n.modZone z f).library = n.library := rfl
@[simp] theorem Node.modZone_lane (z : Nat) (f : Zone → Zone) : (n.modZone z f).lane = n.lane := rfl
@[simp] theorem Node.modZone_mgmt (z : Nat) (f : Zone → Zone) : (n.modZone z f).mgmt = n.mgmt := rfl
@[simp] theorem Node.modZone_pins (z : Nat) (f : Zone → Zone) : (n.modZone z f).pins = n.pins := rfl
@[simp] theorem Node.modZone_early (z : Nat) (f : Zone → Zone) : (n.modZone z f).early = n.early := rfl
@[simp] theorem Node.modZone_freeCount (z : Nat) (f : Zone → Zone) : (n.modZone z f).freeCount = n.freeCount := rfl

/-! ### setStack -/

@[simp] theorem Node.setStack_ring (z : Nat) (st : List Layer) : (n.setStack z st).ring = n.ring := rfl
@[simp] theorem Node.setStack_slots (z : Nat) (st : List Layer) : (n.setStack z st).slots = n.slots := rfl
@[simp] theorem Node.setStack_mixer (z : Nat) (st : List Layer) :
    (n.setStack z st).mixer = { n.mixer with zones := n.mixer.zones.modify z fun r => { r with stack := st } } := rfl
@[simp] theorem Node.setStack_alarm (z : Nat) (st : List Layer) : (n.setStack z st).alarm = n.alarm := rfl
@[simp] theorem Node.setStack_calls (z : Nat) (st : List Layer) : (n.setStack z st).calls = n.calls := rfl
@[simp] theorem Node.setStack_players (z : Nat) (st : List Layer) : (n.setStack z st).players = n.players := rfl
@[simp] theorem Node.setStack_library (z : Nat) (st : List Layer) : (n.setStack z st).library = n.library := rfl
@[simp] theorem Node.setStack_lane (z : Nat) (st : List Layer) : (n.setStack z st).lane = n.lane := rfl
@[simp] theorem Node.setStack_mgmt (z : Nat) (st : List Layer) : (n.setStack z st).mgmt = n.mgmt := rfl
@[simp] theorem Node.setStack_pins (z : Nat) (st : List Layer) : (n.setStack z st).pins = n.pins := rfl
@[simp] theorem Node.setStack_early (z : Nat) (st : List Layer) : (n.setStack z st).early = n.early := rfl
@[simp] theorem Node.setStack_freeCount (z : Nat) (st : List Layer) : (n.setStack z st).freeCount = n.freeCount := rfl

/-! ### setBinding -/

@[simp] theorem Node.setBinding_ring (id : Nat) (b : Option Binding) : (n.setBinding id b).ring = n.ring := rfl
@[simp] theorem Node.setBinding_slots (id : Nat) (b : Option Binding) : (n.setBinding id b).slots = n.slots := rfl
@[simp] theorem Node.setBinding_mixer (id : Nat) (b : Option Binding) :
    (n.setBinding id b).mixer = { n.mixer with bindings := n.mixer.bindings.set id b } := rfl
@[simp] theorem Node.setBinding_alarm (id : Nat) (b : Option Binding) : (n.setBinding id b).alarm = n.alarm := rfl
@[simp] theorem Node.setBinding_calls (id : Nat) (b : Option Binding) : (n.setBinding id b).calls = n.calls := rfl
@[simp] theorem Node.setBinding_players (id : Nat) (b : Option Binding) : (n.setBinding id b).players = n.players := rfl
@[simp] theorem Node.setBinding_library (id : Nat) (b : Option Binding) : (n.setBinding id b).library = n.library := rfl
@[simp] theorem Node.setBinding_lane (id : Nat) (b : Option Binding) : (n.setBinding id b).lane = n.lane := rfl
@[simp] theorem Node.setBinding_mgmt (id : Nat) (b : Option Binding) : (n.setBinding id b).mgmt = n.mgmt := rfl
@[simp] theorem Node.setBinding_pins (id : Nat) (b : Option Binding) : (n.setBinding id b).pins = n.pins := rfl
@[simp] theorem Node.setBinding_early (id : Nat) (b : Option Binding) : (n.setBinding id b).early = n.early := rfl
@[simp] theorem Node.setBinding_freeCount (id : Nat) (b : Option Binding) :
    (n.setBinding id b).freeCount = n.freeCount := rfl

/-! ### modBinding -/

@[simp] theorem Node.modBinding_ring (id : Nat) (f : Binding → Binding) : (n.modBinding id f).ring = n.ring := rfl
@[simp] theorem Node.modBinding_slots (id : Nat) (f : Binding → Binding) : (n.modBinding id f).slots = n.slots := rfl
@[simp] theorem Node.modBinding_mixer (id : Nat) (f : Binding → Binding) :
    (n.modBinding id f).mixer = { n.mixer with bindings := n.mixer.bindings.modify id (Option.map f) } := rfl
@[simp] theorem Node.modBinding_alarm (id : Nat) (f : Binding → Binding) : (n.modBinding id f).alarm = n.alarm := rfl
@[simp] theorem Node.modBinding_calls (id : Nat) (f : Binding → Binding) : (n.modBinding id f).calls = n.calls := rfl
@[simp] theorem Node.modBinding_players (id : Nat) (f : Binding → Binding) :
    (n.modBinding id f).players = n.players := rfl
@[simp] theorem Node.modBinding_library (id : Nat) (f : Binding → Binding) :
    (n.modBinding id f).library = n.library := rfl
@[simp] theorem Node.modBinding_lane (id : Nat) (f : Binding → Binding) : (n.modBinding id f).lane = n.lane := rfl
@[simp] theorem Node.modBinding_mgmt (id : Nat) (f : Binding → Binding) : (n.modBinding id f).mgmt = n.mgmt := rfl
@[simp] theorem Node.modBinding_pins (id : Nat) (f : Binding → Binding) : (n.modBinding id f).pins = n.pins := rfl
@[simp] theorem Node.modBinding_early (id : Nat) (f : Binding → Binding) : (n.modBinding id f).early = n.early := rfl
@[simp] theorem Node.modBinding_freeCount (id : Nat) (f : Binding → Binding) :
    (n.modBinding id f).freeCount = n.freeCount := rfl

/-! ### modEntry -/

@[simp] theorem Node.modEntry_ring (k : Nat) (f : SlotEntry → SlotEntry) : (n.modEntry k f).ring = n.ring := rfl
@[simp] theorem Node.modEntry_slots (k : Nat) (f : SlotEntry → SlotEntry) :
    (n.modEntry k f).slots = { n.slots with table := n.slots.table.modify k f } := rfl
@[simp] theorem Node.modEntry_mixer (k : Nat) (f : SlotEntry → SlotEntry) : (n.modEntry k f).mixer = n.mixer := rfl
@[simp] theorem Node.modEntry_alarm (k : Nat) (f : SlotEntry → SlotEntry) : (n.modEntry k f).alarm = n.alarm := rfl
@[simp] theorem Node.modEntry_calls (k : Nat) (f : SlotEntry → SlotEntry) : (n.modEntry k f).calls = n.calls := rfl
@[simp] theorem Node.modEntry_players (k : Nat) (f : SlotEntry → SlotEntry) :
    (n.modEntry k f).players = n.players := rfl
@[simp] theorem Node.modEntry_library (k : Nat) (f : SlotEntry → SlotEntry) :
    (n.modEntry k f).library = n.library := rfl
@[simp] theorem Node.modEntry_lane (k : Nat) (f : SlotEntry → SlotEntry) : (n.modEntry k f).lane = n.lane := rfl
@[simp] theorem Node.modEntry_mgmt (k : Nat) (f : SlotEntry → SlotEntry) : (n.modEntry k f).mgmt = n.mgmt := rfl
@[simp] theorem Node.modEntry_pins (k : Nat) (f : SlotEntry → SlotEntry) : (n.modEntry k f).pins = n.pins := rfl
@[simp] theorem Node.modEntry_early (k : Nat) (f : SlotEntry → SlotEntry) : (n.modEntry k f).early = n.early := rfl
@[simp] theorem Node.modEntry_freeCount (k : Nat) (f : SlotEntry → SlotEntry) :
    (n.modEntry k f).freeCount = n.freeCount := rfl

/-! ### setReg -/

@[simp] theorem Node.setReg_ring (k : Nat) (e : RegEntry) : (n.setReg k e).ring = n.ring := rfl
@[simp] theorem Node.setReg_slots (k : Nat) (e : RegEntry) :
    (n.setReg k e).slots = { n.slots with register := n.slots.register.set k e } := rfl
@[simp] theorem Node.setReg_mixer (k : Nat) (e : RegEntry) : (n.setReg k e).mixer = n.mixer := rfl
@[simp] theorem Node.setReg_alarm (k : Nat) (e : RegEntry) : (n.setReg k e).alarm = n.alarm := rfl
@[simp] theorem Node.setReg_calls (k : Nat) (e : RegEntry) : (n.setReg k e).calls = n.calls := rfl
@[simp] theorem Node.setReg_players (k : Nat) (e : RegEntry) : (n.setReg k e).players = n.players := rfl
@[simp] theorem Node.setReg_library (k : Nat) (e : RegEntry) : (n.setReg k e).library = n.library := rfl
@[simp] theorem Node.setReg_lane (k : Nat) (e : RegEntry) : (n.setReg k e).lane = n.lane := rfl
@[simp] theorem Node.setReg_mgmt (k : Nat) (e : RegEntry) : (n.setReg k e).mgmt = n.mgmt := rfl
@[simp] theorem Node.setReg_pins (k : Nat) (e : RegEntry) : (n.setReg k e).pins = n.pins := rfl
@[simp] theorem Node.setReg_early (k : Nat) (e : RegEntry) : (n.setReg k e).early = n.early := rfl
@[simp] theorem Node.setReg_freeCount (k : Nat) (e : RegEntry) : (n.setReg k e).freeCount = n.freeCount := rfl

/-! ### setWaiting -/

@[simp] theorem Node.setWaiting_ring (l : List Claim) : (n.setWaiting l).ring = n.ring := rfl
@[simp] theorem Node.setWaiting_slots (l : List Claim) : (n.setWaiting l).slots = { n.slots with waiting := l } := rfl
@[simp] theorem Node.setWaiting_mixer (l : List Claim) : (n.setWaiting l).mixer = n.mixer := rfl
@[simp] theorem Node.setWaiting_alarm (l : List Claim) : (n.setWaiting l).alarm = n.alarm := rfl
@[simp] theorem Node.setWaiting_calls (l : List Claim) : (n.setWaiting l).calls = n.calls := rfl
@[simp] theorem Node.setWaiting_players (l : List Claim) : (n.setWaiting l).players = n.players := rfl
@[simp] theorem Node.setWaiting_library (l : List Claim) : (n.setWaiting l).library = n.library := rfl
@[simp] theorem Node.setWaiting_lane (l : List Claim) : (n.setWaiting l).lane = n.lane := rfl
@[simp] theorem Node.setWaiting_mgmt (l : List Claim) : (n.setWaiting l).mgmt = n.mgmt := rfl
@[simp] theorem Node.setWaiting_pins (l : List Claim) : (n.setWaiting l).pins = n.pins := rfl
@[simp] theorem Node.setWaiting_early (l : List Claim) : (n.setWaiting l).early = n.early := rfl
@[simp] theorem Node.setWaiting_freeCount (l : List Claim) : (n.setWaiting l).freeCount = n.freeCount := rfl

/-! ### modTalk -/

@[simp] theorem Node.modTalk_ring (i : Nat) (f : TalkRecord → TalkRecord) : (n.modTalk i f).ring = n.ring := rfl
@[simp] theorem Node.modTalk_slots (i : Nat) (f : TalkRecord → TalkRecord) :
    (n.modTalk i f).slots = { n.slots with talks := n.slots.talks.modify i f } := rfl
@[simp] theorem Node.modTalk_mixer (i : Nat) (f : TalkRecord → TalkRecord) : (n.modTalk i f).mixer = n.mixer := rfl
@[simp] theorem Node.modTalk_alarm (i : Nat) (f : TalkRecord → TalkRecord) : (n.modTalk i f).alarm = n.alarm := rfl
@[simp] theorem Node.modTalk_calls (i : Nat) (f : TalkRecord → TalkRecord) : (n.modTalk i f).calls = n.calls := rfl
@[simp] theorem Node.modTalk_players (i : Nat) (f : TalkRecord → TalkRecord) :
    (n.modTalk i f).players = n.players := rfl
@[simp] theorem Node.modTalk_library (i : Nat) (f : TalkRecord → TalkRecord) :
    (n.modTalk i f).library = n.library := rfl
@[simp] theorem Node.modTalk_lane (i : Nat) (f : TalkRecord → TalkRecord) : (n.modTalk i f).lane = n.lane := rfl
@[simp] theorem Node.modTalk_mgmt (i : Nat) (f : TalkRecord → TalkRecord) : (n.modTalk i f).mgmt = n.mgmt := rfl
@[simp] theorem Node.modTalk_pins (i : Nat) (f : TalkRecord → TalkRecord) : (n.modTalk i f).pins = n.pins := rfl
@[simp] theorem Node.modTalk_early (i : Nat) (f : TalkRecord → TalkRecord) : (n.modTalk i f).early = n.early := rfl
@[simp] theorem Node.modTalk_freeCount (i : Nat) (f : TalkRecord → TalkRecord) :
    (n.modTalk i f).freeCount = n.freeCount := rfl

/-! ### modCall -/

@[simp] theorem Node.modCall_ring (r : Nat) (f : CallRecord → CallRecord) : (n.modCall r f).ring = n.ring := rfl
@[simp] theorem Node.modCall_slots (r : Nat) (f : CallRecord → CallRecord) : (n.modCall r f).slots = n.slots := rfl
@[simp] theorem Node.modCall_mixer (r : Nat) (f : CallRecord → CallRecord) : (n.modCall r f).mixer = n.mixer := rfl
@[simp] theorem Node.modCall_alarm (r : Nat) (f : CallRecord → CallRecord) : (n.modCall r f).alarm = n.alarm := rfl
@[simp] theorem Node.modCall_calls (r : Nat) (f : CallRecord → CallRecord) :
    (n.modCall r f).calls = { n.calls with records := n.calls.records.modify r f } := rfl
@[simp] theorem Node.modCall_players (r : Nat) (f : CallRecord → CallRecord) :
    (n.modCall r f).players = n.players := rfl
@[simp] theorem Node.modCall_library (r : Nat) (f : CallRecord → CallRecord) :
    (n.modCall r f).library = n.library := rfl
@[simp] theorem Node.modCall_lane (r : Nat) (f : CallRecord → CallRecord) : (n.modCall r f).lane = n.lane := rfl
@[simp] theorem Node.modCall_mgmt (r : Nat) (f : CallRecord → CallRecord) : (n.modCall r f).mgmt = n.mgmt := rfl
@[simp] theorem Node.modCall_pins (r : Nat) (f : CallRecord → CallRecord) : (n.modCall r f).pins = n.pins := rfl
@[simp] theorem Node.modCall_early (r : Nat) (f : CallRecord → CallRecord) : (n.modCall r f).early = n.early := rfl
@[simp] theorem Node.modCall_freeCount (r : Nat) (f : CallRecord → CallRecord) :
    (n.modCall r f).freeCount = n.freeCount := rfl

/-! ### setSendList -/

@[simp] theorem Node.setSendList_ring (l : List SendEntry) : (n.setSendList l).ring = n.ring := rfl
@[simp] theorem Node.setSendList_slots (l : List SendEntry) : (n.setSendList l).slots = n.slots := rfl
@[simp] theorem Node.setSendList_mixer (l : List SendEntry) : (n.setSendList l).mixer = n.mixer := rfl
@[simp] theorem Node.setSendList_alarm (l : List SendEntry) : (n.setSendList l).alarm = n.alarm := rfl
@[simp] theorem Node.setSendList_calls (l : List SendEntry) :
    (n.setSendList l).calls = { n.calls with sendList := l } := rfl
@[simp] theorem Node.setSendList_players (l : List SendEntry) : (n.setSendList l).players = n.players := rfl
@[simp] theorem Node.setSendList_library (l : List SendEntry) : (n.setSendList l).library = n.library := rfl
@[simp] theorem Node.setSendList_lane (l : List SendEntry) : (n.setSendList l).lane = n.lane := rfl
@[simp] theorem Node.setSendList_mgmt (l : List SendEntry) : (n.setSendList l).mgmt = n.mgmt := rfl
@[simp] theorem Node.setSendList_pins (l : List SendEntry) : (n.setSendList l).pins = n.pins := rfl
@[simp] theorem Node.setSendList_early (l : List SendEntry) : (n.setSendList l).early = n.early := rfl
@[simp] theorem Node.setSendList_freeCount (l : List SendEntry) : (n.setSendList l).freeCount = n.freeCount := rfl

/-! ### modPlayer -/

@[simp] theorem Node.modPlayer_ring (p : Nat) (f : Player → Player) : (n.modPlayer p f).ring = n.ring := rfl
@[simp] theorem Node.modPlayer_slots (p : Nat) (f : Player → Player) : (n.modPlayer p f).slots = n.slots := rfl
@[simp] theorem Node.modPlayer_mixer (p : Nat) (f : Player → Player) : (n.modPlayer p f).mixer = n.mixer := rfl
@[simp] theorem Node.modPlayer_alarm (p : Nat) (f : Player → Player) : (n.modPlayer p f).alarm = n.alarm := rfl
@[simp] theorem Node.modPlayer_calls (p : Nat) (f : Player → Player) : (n.modPlayer p f).calls = n.calls := rfl
@[simp] theorem Node.modPlayer_players (p : Nat) (f : Player → Player) :
    (n.modPlayer p f).players = { n.players with players := n.players.players.modify p f } := rfl
@[simp] theorem Node.modPlayer_library (p : Nat) (f : Player → Player) : (n.modPlayer p f).library = n.library := rfl
@[simp] theorem Node.modPlayer_lane (p : Nat) (f : Player → Player) : (n.modPlayer p f).lane = n.lane := rfl
@[simp] theorem Node.modPlayer_mgmt (p : Nat) (f : Player → Player) : (n.modPlayer p f).mgmt = n.mgmt := rfl
@[simp] theorem Node.modPlayer_pins (p : Nat) (f : Player → Player) : (n.modPlayer p f).pins = n.pins := rfl
@[simp] theorem Node.modPlayer_early (p : Nat) (f : Player → Player) : (n.modPlayer p f).early = n.early := rfl
@[simp] theorem Node.modPlayer_freeCount (p : Nat) (f : Player → Player) :
    (n.modPlayer p f).freeCount = n.freeCount := rfl

/-! ### modChannel -/

@[simp] theorem Node.modChannel_ring (a : Nat) (f : Channel → Channel) : (n.modChannel a f).ring = n.ring := rfl
@[simp] theorem Node.modChannel_slots (a : Nat) (f : Channel → Channel) : (n.modChannel a f).slots = n.slots := rfl
@[simp] theorem Node.modChannel_mixer (a : Nat) (f : Channel → Channel) : (n.modChannel a f).mixer = n.mixer := rfl
@[simp] theorem Node.modChannel_alarm (a : Nat) (f : Channel → Channel) :
    (n.modChannel a f).alarm = { n.alarm with channels := n.alarm.channels.modify a f } := rfl
@[simp] theorem Node.modChannel_calls (a : Nat) (f : Channel → Channel) : (n.modChannel a f).calls = n.calls := rfl
@[simp] theorem Node.modChannel_players (a : Nat) (f : Channel → Channel) :
    (n.modChannel a f).players = n.players := rfl
@[simp] theorem Node.modChannel_library (a : Nat) (f : Channel → Channel) :
    (n.modChannel a f).library = n.library := rfl
@[simp] theorem Node.modChannel_lane (a : Nat) (f : Channel → Channel) : (n.modChannel a f).lane = n.lane := rfl
@[simp] theorem Node.modChannel_mgmt (a : Nat) (f : Channel → Channel) : (n.modChannel a f).mgmt = n.mgmt := rfl
@[simp] theorem Node.modChannel_pins (a : Nat) (f : Channel → Channel) : (n.modChannel a f).pins = n.pins := rfl
@[simp] theorem Node.modChannel_early (a : Nat) (f : Channel → Channel) : (n.modChannel a f).early = n.early := rfl
@[simp] theorem Node.modChannel_freeCount (a : Nat) (f : Channel → Channel) :
    (n.modChannel a f).freeCount = n.freeCount := rfl

/-! ### modContact -/

@[simp] theorem Node.modContact_ring (k : Nat) (f : Contact → Contact) : (n.modContact k f).ring = n.ring := rfl
@[simp] theorem Node.modContact_slots (k : Nat) (f : Contact → Contact) : (n.modContact k f).slots = n.slots := rfl
@[simp] theorem Node.modContact_mixer (k : Nat) (f : Contact → Contact) : (n.modContact k f).mixer = n.mixer := rfl
@[simp] theorem Node.modContact_alarm (k : Nat) (f : Contact → Contact) :
    (n.modContact k f).alarm = { n.alarm with contacts := n.alarm.contacts.modify k f } := rfl
@[simp] theorem Node.modContact_calls (k : Nat) (f : Contact → Contact) : (n.modContact k f).calls = n.calls := rfl
@[simp] theorem Node.modContact_players (k : Nat) (f : Contact → Contact) :
    (n.modContact k f).players = n.players := rfl
@[simp] theorem Node.modContact_library (k : Nat) (f : Contact → Contact) :
    (n.modContact k f).library = n.library := rfl
@[simp] theorem Node.modContact_lane (k : Nat) (f : Contact → Contact) : (n.modContact k f).lane = n.lane := rfl
@[simp] theorem Node.modContact_mgmt (k : Nat) (f : Contact → Contact) : (n.modContact k f).mgmt = n.mgmt := rfl
@[simp] theorem Node.modContact_pins (k : Nat) (f : Contact → Contact) : (n.modContact k f).pins = n.pins := rfl
@[simp] theorem Node.modContact_early (k : Nat) (f : Contact → Contact) : (n.modContact k f).early = n.early := rfl
@[simp] theorem Node.modContact_freeCount (k : Nat) (f : Contact → Contact) :
    (n.modContact k f).freeCount = n.freeCount := rfl

/-! ### setFlash -/

@[simp] theorem Node.setFlash_ring (m : List Host.Cell) : (n.setFlash m).ring = n.ring := rfl
@[simp] theorem Node.setFlash_slots (m : List Host.Cell) : (n.setFlash m).slots = n.slots := rfl
@[simp] theorem Node.setFlash_mixer (m : List Host.Cell) : (n.setFlash m).mixer = n.mixer := rfl
@[simp] theorem Node.setFlash_alarm (m : List Host.Cell) : (n.setFlash m).alarm = n.alarm := rfl
@[simp] theorem Node.setFlash_calls (m : List Host.Cell) : (n.setFlash m).calls = n.calls := rfl
@[simp] theorem Node.setFlash_players (m : List Host.Cell) : (n.setFlash m).players = n.players := rfl
@[simp] theorem Node.setFlash_library (m : List Host.Cell) :
    (n.setFlash m).library = { n.library with flash := m } := rfl
@[simp] theorem Node.setFlash_lane (m : List Host.Cell) : (n.setFlash m).lane = n.lane := rfl
@[simp] theorem Node.setFlash_mgmt (m : List Host.Cell) : (n.setFlash m).mgmt = n.mgmt := rfl
@[simp] theorem Node.setFlash_pins (m : List Host.Cell) : (n.setFlash m).pins = n.pins := rfl
@[simp] theorem Node.setFlash_early (m : List Host.Cell) : (n.setFlash m).early = n.early := rfl
@[simp] theorem Node.setFlash_freeCount (m : List Host.Cell) : (n.setFlash m).freeCount = n.freeCount := rfl

/-! ### setOps -/

@[simp] theorem Node.setOps_ring (ops : List FlashOp) : (n.setOps ops).ring = n.ring := rfl
@[simp] theorem Node.setOps_slots (ops : List FlashOp) : (n.setOps ops).slots = n.slots := rfl
@[simp] theorem Node.setOps_mixer (ops : List FlashOp) : (n.setOps ops).mixer = n.mixer := rfl
@[simp] theorem Node.setOps_alarm (ops : List FlashOp) : (n.setOps ops).alarm = n.alarm := rfl
@[simp] theorem Node.setOps_calls (ops : List FlashOp) : (n.setOps ops).calls = n.calls := rfl
@[simp] theorem Node.setOps_players (ops : List FlashOp) : (n.setOps ops).players = n.players := rfl
@[simp] theorem Node.setOps_library (ops : List FlashOp) : (n.setOps ops).library = { n.library with ops := ops } := rfl
@[simp] theorem Node.setOps_lane (ops : List FlashOp) : (n.setOps ops).lane = n.lane := rfl
@[simp] theorem Node.setOps_mgmt (ops : List FlashOp) : (n.setOps ops).mgmt = n.mgmt := rfl
@[simp] theorem Node.setOps_pins (ops : List FlashOp) : (n.setOps ops).pins = n.pins := rfl
@[simp] theorem Node.setOps_early (ops : List FlashOp) : (n.setOps ops).early = n.early := rfl
@[simp] theorem Node.setOps_freeCount (ops : List FlashOp) : (n.setOps ops).freeCount = n.freeCount := rfl

/-! ### enqueue -/

@[simp] theorem Node.enqueue_ring (p : Packet) : (n.enqueue p).ring = n.ring := rfl
@[simp] theorem Node.enqueue_slots (p : Packet) : (n.enqueue p).slots = n.slots := rfl
@[simp] theorem Node.enqueue_mixer (p : Packet) : (n.enqueue p).mixer = n.mixer := rfl
@[simp] theorem Node.enqueue_alarm (p : Packet) : (n.enqueue p).alarm = n.alarm := rfl
@[simp] theorem Node.enqueue_calls (p : Packet) : (n.enqueue p).calls = n.calls := rfl
@[simp] theorem Node.enqueue_players (p : Packet) : (n.enqueue p).players = n.players := rfl
@[simp] theorem Node.enqueue_library (p : Packet) : (n.enqueue p).library = n.library := rfl
@[simp] theorem Node.enqueue_lane (p : Packet) :
    (n.enqueue p).lane = { n.lane with outbound := n.lane.outbound ++ [p] } := rfl
@[simp] theorem Node.enqueue_mgmt (p : Packet) : (n.enqueue p).mgmt = n.mgmt := rfl
@[simp] theorem Node.enqueue_pins (p : Packet) : (n.enqueue p).pins = n.pins := rfl
@[simp] theorem Node.enqueue_early (p : Packet) : (n.enqueue p).early = n.early := rfl
@[simp] theorem Node.enqueue_freeCount (p : Packet) : (n.enqueue p).freeCount = n.freeCount := rfl

/-! ### reserve -/

@[simp] theorem Node.reserve_ring : n.reserve.ring = n.ring := rfl
@[simp] theorem Node.reserve_slots : n.reserve.slots = n.slots := rfl
@[simp] theorem Node.reserve_mixer : n.reserve.mixer = n.mixer := rfl
@[simp] theorem Node.reserve_alarm : n.reserve.alarm = n.alarm := rfl
@[simp] theorem Node.reserve_calls : n.reserve.calls = n.calls := rfl
@[simp] theorem Node.reserve_players : n.reserve.players = n.players := rfl
@[simp] theorem Node.reserve_library : n.reserve.library = n.library := rfl
@[simp] theorem Node.reserve_lane : n.reserve.lane = { n.lane with reservations := n.lane.reservations + 1 } := rfl
@[simp] theorem Node.reserve_mgmt : n.reserve.mgmt = n.mgmt := rfl
@[simp] theorem Node.reserve_pins : n.reserve.pins = n.pins := rfl
@[simp] theorem Node.reserve_early : n.reserve.early = n.early := rfl
@[simp] theorem Node.reserve_freeCount : n.reserve.freeCount = n.freeCount := rfl

/-! ### unreserve -/

@[simp] theorem Node.unreserve_ring : n.unreserve.ring = n.ring := rfl
@[simp] theorem Node.unreserve_slots : n.unreserve.slots = n.slots := rfl
@[simp] theorem Node.unreserve_mixer : n.unreserve.mixer = n.mixer := rfl
@[simp] theorem Node.unreserve_alarm : n.unreserve.alarm = n.alarm := rfl
@[simp] theorem Node.unreserve_calls : n.unreserve.calls = n.calls := rfl
@[simp] theorem Node.unreserve_players : n.unreserve.players = n.players := rfl
@[simp] theorem Node.unreserve_library : n.unreserve.library = n.library := rfl
@[simp] theorem Node.unreserve_lane : n.unreserve.lane = { n.lane with reservations := n.lane.reservations - 1 } := rfl
@[simp] theorem Node.unreserve_mgmt : n.unreserve.mgmt = n.mgmt := rfl
@[simp] theorem Node.unreserve_pins : n.unreserve.pins = n.pins := rfl
@[simp] theorem Node.unreserve_early : n.unreserve.early = n.early := rfl
@[simp] theorem Node.unreserve_freeCount : n.unreserve.freeCount = n.freeCount := rfl

/-! ### mark -/

@[simp] theorem Node.mark_ring (sh : Share) : (n.mark sh).ring = n.ring := rfl
@[simp] theorem Node.mark_slots (sh : Share) : (n.mark sh).slots = n.slots := rfl
@[simp] theorem Node.mark_mixer (sh : Share) : (n.mark sh).mixer = n.mixer := rfl
@[simp] theorem Node.mark_alarm (sh : Share) : (n.mark sh).alarm = n.alarm := rfl
@[simp] theorem Node.mark_calls (sh : Share) : (n.mark sh).calls = n.calls := rfl
@[simp] theorem Node.mark_players (sh : Share) : (n.mark sh).players = n.players := rfl
@[simp] theorem Node.mark_library (sh : Share) : (n.mark sh).library = n.library := rfl
@[simp] theorem Node.mark_lane (sh : Share) : (n.mark sh).lane = n.lane := rfl
@[simp] theorem Node.mark_mgmt (sh : Share) : (n.mark sh).mgmt = n.mgmt := rfl
@[simp] theorem Node.mark_pins (sh : Share) : (n.mark sh).pins = n.pins := rfl
@[simp] theorem Node.mark_early (sh : Share) : (n.mark sh).early = sh :: n.early := rfl
@[simp] theorem Node.mark_freeCount (sh : Share) : (n.mark sh).freeCount = n.freeCount := rfl

/-! ### Blocks of a whole part -/

@[simp] theorem State.node_mk (m : Node) (l : List Instr) : (State.mk m l).node = m := rfl
@[simp] theorem State.pending_mk (m : Node) (l : List Instr) : (State.mk m l).pending = l := rfl

/-! ### A record after an update -/

theorem getD_modify_self {α : Type} (l : List α) (f : α → α) (d : α) {i : Nat} (h : i < l.length) :
    (l.modify i f).getD i d = f (l.getD i d) := by
  simp [List.getD_eq_getElem?_getD, h]

theorem getD_modify_other {α : Type} (l : List α) (f : α → α) (d : α) {i j : Nat} (h : i ≠ j) :
    (l.modify i f).getD j d = l.getD j d := by
  simp [List.getD_eq_getElem?_getD, h]

theorem getD_set_self {α : Type} (l : List α) (x d : α) {i : Nat} (h : i < l.length) : (l.set i x).getD i d = x := by
  simp [List.getD_eq_getElem?_getD, h]

theorem getD_set_other {α : Type} (l : List α) (x d : α) {i j : Nat} (h : i ≠ j) : (l.set i x).getD j d = l.getD j d := by
  simp [List.getD_eq_getElem?_getD, h]

theorem Node.zone_modZone_self (z : Nat) (f : Zone → Zone) (h : z < n.mixer.zones.length) :
    (n.modZone z f).zone z = f (n.zone z) := getD_modify_self _ _ _ h

theorem Node.zone_modZone_other (z j : Nat) (f : Zone → Zone) (h : z ≠ j) : (n.modZone z f).zone j = n.zone j :=
  getD_modify_other _ _ _ h

theorem Node.entry_modEntry_self (k : Nat) (f : SlotEntry → SlotEntry) (h : k < n.slots.table.length) :
    (n.modEntry k f).entry k = f (n.entry k) := getD_modify_self _ _ _ h

theorem Node.entry_modEntry_other (k j : Nat) (f : SlotEntry → SlotEntry) (h : k ≠ j) : (n.modEntry k f).entry j = n.entry j :=
  getD_modify_other _ _ _ h

theorem Node.talk_modTalk_self (i : Nat) (f : TalkRecord → TalkRecord) (h : i < n.slots.talks.length) :
    (n.modTalk i f).talk i = f (n.talk i) := getD_modify_self _ _ _ h

theorem Node.talk_modTalk_other (i j : Nat) (f : TalkRecord → TalkRecord) (h : i ≠ j) : (n.modTalk i f).talk j = n.talk j :=
  getD_modify_other _ _ _ h

theorem Node.call_modCall_self (r : Nat) (f : CallRecord → CallRecord) (h : r < n.calls.records.length) :
    (n.modCall r f).call r = f (n.call r) := getD_modify_self _ _ _ h

theorem Node.call_modCall_other (r j : Nat) (f : CallRecord → CallRecord) (h : r ≠ j) : (n.modCall r f).call j = n.call j :=
  getD_modify_other _ _ _ h

theorem Node.player_modPlayer_self (p : Nat) (f : Player → Player) (h : p < n.players.players.length) :
    (n.modPlayer p f).player p = f (n.player p) := getD_modify_self _ _ _ h

theorem Node.player_modPlayer_other (p j : Nat) (f : Player → Player) (h : p ≠ j) : (n.modPlayer p f).player j = n.player j :=
  getD_modify_other _ _ _ h

theorem Node.channel_modChannel_self (a : Nat) (f : Channel → Channel) (h : a < n.alarm.channels.length) :
    (n.modChannel a f).channel a = f (n.channel a) := getD_modify_self _ _ _ h

theorem Node.channel_modChannel_other (a j : Nat) (f : Channel → Channel) (h : a ≠ j) : (n.modChannel a f).channel j = n.channel j :=
  getD_modify_other _ _ _ h

theorem Node.contact_modContact_self (k : Nat) (f : Contact → Contact) (h : k < n.alarm.contacts.length) :
    (n.modContact k f).contact k = f (n.contact k) := getD_modify_self _ _ _ h

theorem Node.contact_modContact_other (k j : Nat) (f : Contact → Contact) (h : k ≠ j) : (n.modContact k f).contact j = n.contact j :=
  getD_modify_other _ _ _ h

theorem Node.reg_setReg_self (k : Nat) (x : RegEntry) (h : k < n.slots.register.length) : (n.setReg k x).reg k = x :=
  getD_set_self _ _ _ h

theorem Node.reg_setReg_other (k j : Nat) (x : RegEntry) (h : k ≠ j) : (n.setReg k x).reg j = n.reg j :=
  getD_set_other _ _ _ h

theorem Node.binding_setBinding_self (id : Nat) (x : Option Binding) (h : id < n.mixer.bindings.length) : (n.setBinding id x).binding id = x :=
  getD_set_self _ _ _ h

theorem Node.binding_setBinding_other (id j : Nat) (x : Option Binding) (h : id ≠ j) : (n.setBinding id x).binding j = n.binding j :=
  getD_set_other _ _ _ h

end Sys2Proof.Machine
end

