-- ==== Sys2Proof/Laws/Steps.lean ====
section
/-! SUPPORT. What the operations shared by many commands do in the cases the statements ask about: a command taken, a response in
its reservation, lengths of the tables, the end of a call and of a job. -/

namespace Sys2Proof.Machine

/-! ## Commands taken -/

/-- A command that the part is ready to take is carried out with its response reserved. -/
theorem Node.taken_ready {n : Node} {who : Req} (h : n.ready who = true) (work : Node → Node) :
    n.taken who work = work n.reserve := by
  simp only [Node.ready, Bool.and_eq_true, decide_eq_true_eq] at h
  simp [Node.taken, h.1.1, h.1.2, h.2]

/-- A response goes into the reservation of its own command. -/
theorem Node.reserve_respond (n : Node) (who : Req) (kind : Nat) (st : Status) (results : List Byte) :
    n.reserve.respond who kind st results = n.enqueue (n.answer who kind st results) := by
  simp [Node.respond, Node.reserve, Node.unreserve, Node.enqueue, Node.answer, Node.address]

/-- A ready part runs its work on frames and packets. -/
theorem Node.ready_running {n : Node} {who : Req} (h : n.ready who = true) : n.mgmt.node = .running := by
  simp only [Node.ready, Node.takesCommands, Node.running, Bool.and_eq_true, decide_eq_true_eq] at h
  exact h.1.1.1.1.1

/-! ## Lengths of the tables -/

/-- The lengths that the invariant gives. -/
theorem Node.lengths_of_ok {n : Node} (h : n.ok = true) :
    n.lengths = [16, 64, 8, 64, 64, 8, 2, 2, 8, 8, 2, 4] := by
  have := ((Node.ok_iff n).1 h).2.2
  simpa [Node.tablesOk] using this

theorem Node.zones_len {n : Node} (h : n.ok = true) : n.mixer.zones.length = 16 := by
  have := Node.lengths_of_ok h
  simp only [Node.lengths, List.cons.injEq] at this
  tauto

theorem Node.bindings_len {n : Node} (h : n.ok = true) : n.mixer.bindings.length = 64 := by
  have := Node.lengths_of_ok h
  simp only [Node.lengths, List.cons.injEq] at this
  tauto

theorem Node.classes_len {n : Node} (h : n.ok = true) : n.mixer.classes.length = 8 := by
  have := Node.lengths_of_ok h
  simp only [Node.lengths, List.cons.injEq] at this
  tauto

theorem Node.table_len {n : Node} (h : n.ok = true) : n.slots.table.length = 64 := by
  have := Node.lengths_of_ok h
  simp only [Node.lengths, List.cons.injEq] at this
  tauto

theorem Node.register_len {n : Node} (h : n.ok = true) : n.slots.register.length = 64 := by
  have := Node.lengths_of_ok h
  simp only [Node.lengths, List.cons.injEq] at this
  tauto

theorem Node.talks_len {n : Node} (h : n.ok = true) : n.slots.talks.length = 8 := by
  have := Node.lengths_of_ok h
  simp only [Node.lengths, List.cons.injEq] at this
  tauto

theorem Node.contacts_len {n : Node} (h : n.ok = true) : n.alarm.contacts.length = 2 := by
  have := Node.lengths_of_ok h
  simp only [Node.lengths, List.cons.injEq] at this
  tauto

theorem Node.channels_len {n : Node} (h : n.ok = true) : n.alarm.channels.length = 2 := by
  have := Node.lengths_of_ok h
  simp only [Node.lengths, List.cons.injEq] at this
  tauto

theorem Node.records_len {n : Node} (h : n.ok = true) : n.calls.records.length = 8 := by
  have := Node.lengths_of_ok h
  simp only [Node.lengths, List.cons.injEq] at this
  tauto

theorem Node.players_len {n : Node} (h : n.ok = true) : n.players.players.length = 2 := by
  have := Node.lengths_of_ok h
  simp only [Node.lengths, List.cons.injEq] at this
  tauto

/-- Operations that leave the kept fields alone leave the tables' lengths alone. -/
theorem Node.lengths_of_kept {m n : Node} (h : m.kept = n.kept) : m.lengths = n.lengths := congrArg Kept.lengths h

/-- A reception restarts nothing (R181). -/
theorem Node.receive_restarts (n : Node) (whole : Bool) (all lane : List Byte) : (n.receive whole all lane).restarts = false := by
  unfold Node.receive
  dsimp only
  repeat' split
  all_goals rfl

/-- Without a RESTART taken, the control lane of a frame does not restart the part (R195). -/
theorem Node.laneFrame_restarts (n : Node) (seq : Nat) (lane : List Byte) (h : n.mgmt.restart.isSome = false) :
    (n.laneFrame seq lane).restarts = false := by
  have hr : ∀ m : Node, m.mgmt = n.mgmt → m.headRestarts = false := fun m e => by simp [Node.headRestarts, e, h]
  unfold Node.laneFrame
  repeat' split
  · unfold Node.laneDue
    split
    · rfl
    · unfold Node.laneEnd
      dsimp only
      repeat' split
      all_goals first
        | rfl
        | exact hr _ rfl
        | exact Node.receive_restarts _ _ _ _
  all_goals rfl

/-! ## Read streams -/

/-- What a stream may deliver at once is at most 64 samples and the room of the queue, and no more than the present pass needs
when no further pass is due (R155). -/
theorem Stream.allowance_le (s : Stream) (queued : Nat) :
    s.allowance queued ≤ 64 ∧ s.allowance queued ≤ 512 - queued ∧
      (s.due = false → s.allowance queued ≤ s.length - (s.position + queued)) := by
  cases h : s.due <;> simp [Stream.allowance, Stream.wanted, h]

/-- A batch delivers at most what it was allowed (R155). -/
theorem Node.streamBatch_length (n : Node) (s : Stream) (stalled : Nat → Bool) (fuel next : Nat) (got : List LibSample) :
    (n.streamBatch s stalled fuel next got).2.length ≤ got.length + fuel := by
  induction fuel generalizing next got with
  | zero => exact Nat.le_refl _
  | succ fuel ih =>
    rw [Node.streamBatch]
    generalize (if next < s.length then next else 0) = k
    split
    · exact Nat.le_add_right _ _
    · refine Nat.le_trans (ih _ _) ?_
      simp
      omega

/-! ## Players at the end of a job -/

/-- A player that an operation has changed, when it is one of the two (R149). -/
theorem Node.player_modPlayer {n : Node} {p : Nat} (hp : p < n.players.players.length) (f : Player → Player) :
    (n.modPlayer p f).player p = f (n.player p) := by
  simp [Node.modPlayer, Node.player, List.getD, List.getElem?_eq_getElem hp]

/-- A pop leaves the players alone (R57). -/
theorem Node.popLayers_players (n : Node) (id : Option Nat) (owner : Owner) : (n.popLayers id owner).players = n.players := by
  have hfold : ∀ (l : List Nat) (k : Nat) (m : Node), (l.foldl (fun m z => m.popZone z k) m).players = m.players := by
    intro l k
    induction l with
    | nil => exact fun _ => rfl
    | cons z l ih =>
      intro m
      rw [List.foldl_cons, ih]
      unfold Node.popZone
      split <;> rfl
  unfold Node.popLayers
  repeat' split
  · rfl
  · exact hfold _ _ _
  all_goals rfl

/-- The PLAYER DONE notice leaves the players alone (R159). -/
theorem Node.playerDone_players (n : Node) (p : Nat) (why : JobEnd) : (n.playerDone p why).players = n.players := by
  simp only [Node.playerDone, Node.notice]
  repeat' split
  all_goals rfl

/-- What the finish of a job leaves of its player's stream (R159, R162). -/
theorem Node.jobFinish_stream {n : Node} {p : Nat} (hp : p < n.players.players.length) :
    let m := (n.jobFinish p).player p
    let q := if (n.player p).voice.isSome then n.player p else (n.player p).closeStream
    m.streamOpen = q.streamOpen ∧ m.queue = q.queue := by
  have h1 : p < ((n.modPlayer p fun q => if q.voice.isSome then q else q.closeStream).playerDone p
      ((n.player p).job.endReason.getD .stopped)).players.players.length := by
    rw [Node.playerDone_players]
    simpa [Node.modPlayer] using hp
  dsimp only [Node.jobFinish]
  rw [Node.modJob, Node.player_modPlayer h1]
  dsimp only
  rw [show ∀ m : Node, m.player p = m.players.players.getD p .reset from fun _ => rfl, Node.playerDone_players]
  rw [← show ∀ m : Node, m.player p = m.players.players.getD p .reset from fun _ => rfl, Node.player_modPlayer hp]
  exact ⟨rfl, rfl⟩

/-- What the end of a job does to its player's stream (R158, R163): it closes, but for STOPPED in PLAYING with samples of the pass
left, where it stays as it is while the job's binding fades. -/
theorem Node.jobEnd_stream {n : Node} {p : Nat} {why : JobEnd} (hp : p < n.players.players.length)
    (hr : (n.player p).job.running = true) :
    let m := (n.jobEnd p why).player p
    let left : Prop := why = .stopped ∧ (n.player p).job.state = .playing ∧ n.passOver p = false
    (¬left → m.streamOpen = false ∧ m.queue = []) ∧
      (left → (n.player p).job.binding.isSome → m.streamOpen = (n.player p).streamOpen ∧ m.queue = (n.player p).queue) := by
  dsimp only [Node.jobEnd]
  rw [if_pos hr]
  generalize hf : (fun q : Player =>
    let q := { q with job := { q.job with state := .stopping, endReason := some why, timer := 0 } }
    if why = .stopped ∧ (n.player p).job.state = .playing ∧ n.passOver p = false then q else q.closeStream) = f
  have hclosed : ¬(why = .stopped ∧ (n.player p).job.state = .playing ∧ n.passOver p = false) →
      (f (n.player p)).streamOpen = false ∧ (f (n.player p)).queue = [] := by
    intro h
    subst hf
    simp only [if_neg h]
    exact ⟨rfl, rfl⟩
  have hkept : (why = .stopped ∧ (n.player p).job.state = .playing ∧ n.passOver p = false) →
      (f (n.player p)).streamOpen = (n.player p).streamOpen ∧ (f (n.player p)).queue = (n.player p).queue := by
    intro h
    subst hf
    simp only [if_pos h, and_self]
  have h2 : ((n.modPlayer p f).popLayers (n.player p).job.binding (.player p)).players = (n.modPlayer p f).players :=
    Node.popLayers_players _ _ _
  generalize (n.modPlayer p f).popLayers (n.player p).job.binding (.player p) = n2 at h2 ⊢
  have hq : n2.player p = f (n.player p) := by
    rw [Node.player, h2, ← Node.player_modPlayer hp f]
    rfl
  have hl : p < n2.players.players.length := by
    rw [h2]
    simpa [Node.modPlayer] using hp
  have h3 : ∃ n3 : Node, (if (n.player p).job.claim = .none then n2
      else (n2.releaseClaim (.player p)).modJob p fun j => { j with claim := .none, talk := none }) = n3 ∧
      p < n3.players.players.length ∧ (n3.player p).streamOpen = (f (n.player p)).streamOpen ∧
      (n3.player p).queue = (f (n.player p)).queue := by
    refine ⟨_, rfl, ?_⟩
    split
    · exact ⟨hl, by rw [hq], by rw [hq]⟩
    · have hl' : p < (n2.releaseClaim (.player p)).players.players.length := hl
      have hq' : (n2.releaseClaim (.player p)).player p = f (n.player p) := hq
      refine ⟨by simpa [Node.modJob, Node.modPlayer] using hl', ?_⟩
      rw [Node.modJob, Node.player_modPlayer hl', hq']
      exact ⟨rfl, rfl⟩
  obtain ⟨n3, e, hl3, ho, hqu⟩ := h3
  rw [e]
  refine ⟨fun h => ?_, fun h hb => ?_⟩
  · obtain ⟨h0, h1⟩ := hclosed h
    rw [h0] at ho
    rw [h1] at hqu
    split
    · obtain ⟨a, b⟩ := Node.jobFinish_stream hl3
      rw [a, b]
      split
      · exact ⟨ho, hqu⟩
      · exact ⟨rfl, rfl⟩
    · exact ⟨ho, hqu⟩
  · obtain ⟨h0, h1⟩ := hkept h
    rw [if_neg (by cases hj : (n.player p).job.binding <;> simp_all), ho, hqu]
    exact ⟨h0, h1⟩

/-! ## Held frame times (R10, R138) -/

/-- A node with a primary input is in a held frame time exactly when what that input holds makes it so. -/
theorem Node.heldTime_at {n : Node} {p : Port} (h : n.ring.wrap.primary = some p) :
    n.heldTime = n.arrivalHolds (n.ring.arrival p) := by simp [Node.heldTime, h]

/-- A frame leaves its frame time unheld when it is undamaged and, at a master, the node's own or one to which it yields. -/
theorem Node.holdsTime_iff (n : Node) (f : Frame) : n.holdsTime f = true ↔
    ¬(f.undamaged = true ∧ (n.isMaster = true → f.master.toNat = n.address ∨ n.yieldsTo f = true)) := by
  simp only [Node.holdsTime]
  cases f.undamaged <;> cases n.isMaster <;> cases n.yieldsTo f <;> simp

/-- In ISOLATED no count reads a generated frame. -/
theorem Node.readGenerated_isolated {n : Node} (h : n.ring.wrap = .isolated) (hs : Headers) : n.readGenerated hs = n := by
  simp [Node.readGenerated, h]

/-- With a primary input the free runs read a generated frame, and the path counts do but in a held frame time. -/
theorem Node.readGenerated_primary {n : Node} {p : Port} (h : n.ring.wrap.primary = some p) (hs : Headers) :
    n.readGenerated hs = if n.heldTime then n.freeRuns hs else (n.freeRuns hs).pathCounts hs := by
  have hw : n.ring.wrap ≠ .isolated := by rintro e; simp [e, WrapState.primary] at h
  simp [Node.readGenerated, hw]

/-! ## The stacks that zone computations find (R85, R191) -/

/-- Each zone computation finds the stack that those before it have left. -/
theorem Node.foundStacks_get (n : Node) (zs : List Nat) (i : Nat) :
    (n.foundStacks zs)[i]? = zs[i]?.map ((zs.take i).foldl Node.computeZone n).stack := by
  induction zs generalizing n i with
  | nil => rfl
  | cons z zs ih => cases i <;> simp [Node.foundStacks, ih]

end Sys2Proof.Machine
end

