-- ==== Sys2Proof/Laws/Free.lean ====
section
/-! SUPPORT. A FREE binding id stays FREE through the ends of layers, bindings, calls and jobs (R58), so that an admission that
finds room finds an id, and a push of one layer that gives no id leaves the part as it was. -/

namespace Sys2Proof.Machine

/-- A binding is read from the table alone. -/
theorem Node.binding_of_eq {m n : Node} (e : m.mixer.bindings = n.mixer.bindings) (id : Nat) : m.binding id = n.binding id := by
  unfold Node.binding; rw [e]

@[simp] theorem Node.modBinding_free (n : Node) (j : Nat) (f : Binding → Binding) {id : Nat} (h : n.binding id = none) :
    (n.modBinding j f).binding id = none := by
  unfold Node.modBinding Node.binding at *
  simp only [List.getD_eq_getElem?_getD, List.getElem?_modify] at *
  cases e : n.mixer.bindings[id]? with
  | none => simp
  | some b =>
    rw [e] at h
    simp only [Option.getD_some] at h
    subst h
    by_cases hj : j = id <;> simp [hj]

@[simp] theorem Node.setBinding_free (n : Node) (j : Nat) {id : Nat} (h : n.binding id = none) :
    (n.setBinding j none).binding id = none := by
  unfold Node.setBinding Node.binding at *
  simp only [List.getD_eq_getElem?_getD, List.getElem?_set] at *
  split
  · split <;> simp
  · exact h

/-- A fold of an operation that frees ids and takes none. -/
theorem foldl_free {α : Type} (f : Node → α → Node) (id : Nat)
    (hf : ∀ n a, n.binding id = none → (f n a).binding id = none) (l : List α) (n : Node) (h : n.binding id = none) :
    (l.foldl f n).binding id = none := by
  induction l generalizing n with
  | nil => exact h
  | cons a l ih => exact ih _ (hf n a h)

@[simp] theorem Node.popZone_free (n : Node) (z j : Nat) {id : Nat} (h : n.binding id = none) :
    (n.popZone z j).binding id = none := by
  unfold Node.popZone; split <;> exact h

@[simp] theorem Node.popAll_free (n : Node) (j : Nat) {id : Nat} (h : n.binding id = none) :
    (n.popAll j).binding id = none := foldl_free _ _ (fun n a h => by simp [h]) _ _ h

@[simp] theorem Node.beginEnd_free (n : Node) (j : Nat) (why : Ending) {id : Nat} (h : n.binding id = none) :
    (n.beginEnd j why).binding id = none := by simp [Node.beginEnd, h]

@[simp] theorem Node.popLayers_free (n : Node) (j : Option Nat) (o : Owner) {id : Nat} (h : n.binding id = none) :
    (n.popLayers j o).binding id = none := by
  unfold Node.popLayers
  repeat' split
  all_goals simp [h]

@[simp] theorem Node.notice_binding (n : Node) (d k : Nat) (p : List Byte) (id : Nat) : (n.notice d k p).binding id = n.binding id := by
  unfold Node.notice
  repeat' split
  all_goals rfl

@[simp] theorem Node.generalNotice_binding (n : Node) (k : Nat) (p : List Byte) (id : Nat) :
    (n.generalNotice k p).binding id = n.binding id := by
  unfold Node.generalNotice
  split <;> simp

@[simp] theorem Node.modCall_binding (n : Node) (r : Nat) (f : CallRecord → CallRecord) (id : Nat) :
    (n.modCall r f).binding id = n.binding id := rfl

@[simp] theorem Node.closingPacket_binding (n : Node) (r : Nat) (why : Reason) (side : Side) (id : Nat) :
    (n.closingPacket r why side).binding id = n.binding id := by
  unfold Node.closingPacket
  dsimp only
  repeat' split
  all_goals rfl

@[simp] theorem Node.releaseClaim_binding (n : Node) (u : User) (id : Nat) : (n.releaseClaim u).binding id = n.binding id := rfl

@[simp] theorem Node.callEnd_free (n : Node) (r : Nat) (why : Reason) (side : Side) {id : Nat} (h : n.binding id = none) :
    (n.callEnd r why side).binding id = none := by
  unfold Node.callEnd
  dsimp only
  split
  · exact h
  · simp [Node.callEndedNotice, h]

@[simp] theorem Node.modPlayer_binding (n : Node) (p : Nat) (f : Player → Player) (id : Nat) :
    (n.modPlayer p f).binding id = n.binding id := rfl
@[simp] theorem Node.modJob_binding (n : Node) (p : Nat) (f : Job → Job) (id : Nat) : (n.modJob p f).binding id = n.binding id := rfl

@[simp] theorem Node.jobFinish_free (n : Node) (p : Nat) {id : Nat} (h : n.binding id = none) :
    (n.jobFinish p).binding id = none := by simp [Node.jobFinish, Node.playerDone, h]

@[simp] theorem Node.jobEnd_free (n : Node) (p : Nat) (why : JobEnd) {id : Nat} (h : n.binding id = none) :
    (n.jobEnd p why).binding id = none := by
  unfold Node.jobEnd
  dsimp only
  repeat' split
  all_goals simp [h]

@[simp] theorem Node.testGate_binding (n : Node) (p : Nat) (id : Nat) : (n.testGate p).binding id = n.binding id := by
  unfold Node.testGate; split <;> rfl

@[simp] theorem Node.evictionReport_free (n : Node) (j : Nat) {id : Nat} (h : n.binding id = none) :
    (n.evictionReport j).binding id = none := by
  unfold Node.evictionReport
  repeat' split
  all_goals simp [h]

@[simp] theorem Node.modChannel_binding (n : Node) (a : Nat) (f : Channel → Channel) (id : Nat) :
    (n.modChannel a f).binding id = n.binding id := rfl

@[simp] theorem Node.bindingEndedNotice_binding (n : Node) (j : Nat) (b : Binding) (why : Ending) (id : Nat) :
    (n.bindingEndedNotice j b why).binding id = n.binding id := by
  unfold Node.bindingEndedNotice
  split <;> simp

@[simp] theorem Node.endReport_free (n : Node) (j : Nat) (b : Binding) {id : Nat} (h : n.binding id = none) :
    (n.endReport j b).binding id = none := by
  unfold Node.endReport
  dsimp only
  repeat' split
  all_goals simp [h]

@[simp] theorem Node.bindingEnd_free (n : Node) (j : Nat) {id : Nat} (h : n.binding id = none) :
    (n.bindingEnd j).binding id = none := by
  unfold Node.bindingEnd
  split
  · exact h
  · dsimp only
    apply Node.endReport_free
    rw [Node.bindingEndedNotice_binding]
    split
    · exact n.setBinding_free j h
    · exact n.setBinding_free j h

@[simp] theorem Node.removeLayer_free (n : Node) (z j : Nat) {id : Nat} (h : n.binding id = none) :
    (n.removeLayer z j).binding id = none := by
  unfold Node.removeLayer
  have h1 : ((n.setStack z ((n.stack z).filter fun l => l.binding ≠ j)).settle z).binding id = none := h
  dsimp only
  split
  · exact Node.bindingEnd_free _ _ (Node.modBinding_free _ _ _ h1)
  · exact Node.modBinding_free _ _ _ h1

@[simp] theorem Node.evictLayer_free (n : Node) (z j : Nat) {id : Nat} (h : n.binding id = none) :
    (n.evictLayer z j).binding id = none := by simp [Node.evictLayer, h]

/-- Room made in a stack takes no id. -/
theorem Node.makeRoom_free {n m : Node} {z c : Nat} {a : Bool} (e : n.makeRoom z c a = some m) {id : Nat} (h : n.binding id = none) :
    m.binding id = none := by
  unfold Node.makeRoom Node.cutLowest at e
  repeat' split at e
  all_goals first
    | (obtain rfl := Option.some.inj e; simp [h])
    | (simp only [Option.map_eq_some_iff] at e; obtain ⟨l, -, rfl⟩ := e; simp [h])
    | simp at e

/-- There is a lowest FREE id where some id below 62 is FREE (R51). -/
theorem Node.lowestFree_isSome {n : Node} : n.lowestFree.isSome = true ↔ ∃ id, id < 62 ∧ n.binding id = none := by
  simp [Node.lowestFree, List.find?_isSome]

/-- A push of one layer that gives no id leaves the part as it was. -/
theorem Node.pushOne_none {n : Node} {z : Nat} {b : Binding} (h : (n.pushOne z b).2 = none) : (n.pushOne z b).1 = n := by
  unfold Node.pushOne at h ⊢
  split
  · rfl
  · rename_i hf
    rw [if_neg hf] at h
    have hs : n.lowestFree.isSome = true := by
      simp only [Node.bindingsFull] at hf
      cases e : n.lowestFree <;> simp_all
    simp only [Node.push, List.foldl_cons, List.foldl_nil, Pushed.next] at h ⊢
    unfold Node.tryAdmit at h ⊢
    split
    · rfl
    rename_i hk
    split
    · rfl
    rename_i hl
    split
    · rfl
    · rename_i m hm
      rw [if_neg hk, if_neg hl, hm] at h
      obtain ⟨id, hid, hfree⟩ := Node.lowestFree_isSome.1 hs
      have : m.lowestFree.isSome = true := Node.lowestFree_isSome.2 ⟨id, hid, Node.makeRoom_free hm hfree⟩
      obtain ⟨k, hk'⟩ := Option.isSome_iff_exists.1 this
      simp [hk'] at h

/-- A call push that gives no id leaves the part as it was. -/
theorem Node.callPush_none {n : Node} {r : Nat} {src : Source} (h : (n.callPush r src).2 = none) : (n.callPush r src).1 = n :=
  Node.pushOne_none h
end Sys2Proof.Machine
end

