-- ==== Sys2Proof/Tests/Slice0.lean ====
section
/-! SUPPORT. Tests of this package: the well-formedness check refuses an ill-formed term of each kind, worked values of the
manual, and for each statement with hypotheses a state that meets them all. -/

namespace Sys2Proof.Tests

open Sys2Proof Sys2Proof.Machine

/-! ## Well-formedness -/

/-- A sender in range. -/
def who : Req := { src := 239, tag := 255 }

/-- PLAY's parameters, each in range, on the ring alone. -/
def args : PlayArgs where
  player := 2
  message := 255
  cls := 7
  gain := 32
  ringOut := true
  wait := true
  target := none
  passes := 15
  gapMs := 10000
  cookie := 65535

theorem test_wf_sender : (Instr.identify who).wf = true ∧ (Instr.identify { who with src := 256 }).wf = false ∧
    (Instr.identify { who with tag := 256 }).wf = false := by decide

theorem test_wf_fields : (Instr.readZone who 256).wf = false ∧ (Instr.erase who 65536).wf = false ∧
    (Instr.setVolume who 1 32768).wf = false ∧ (Instr.setVolume who 1 (-32769)).wf = false ∧
    (Instr.setRingParameters who 24 4294967296 480).wf = false ∧
    (Instr.writeData who 0 0 (List.replicate 52 0)).wf = false := by decide

theorem test_wf_target : (Instr.bind who 0 0 0 0 false 0 (.list (List.replicate 22 4095))).wf = true ∧
    (Instr.bind who 0 0 0 0 false 0 (.list (List.replicate 23 4095))).wf = false ∧
    (Instr.bind who 0 0 0 0 false 0 (.list [65536])).wf = false := by decide

theorem test_wf_play : (Instr.play who args).wf = true ∧ (Instr.play who { args with message := 256 }).wf = false ∧
    (Instr.play who { args with target := some (.list (List.replicate 22 1)) }).wf = false := by decide

theorem test_wf_pins : (Instr.frameTime restingPins).wf = true ∧
    (Instr.frameTime { restingPins with address := 256 }).wf = false ∧
    (Instr.powerOn { restingPins with lanes := [] }).wf = false := by decide

theorem test_wf_reception : (Instr.portLock .west []).wf = true ∧ (Instr.portLock .west [0xB8]).wf = false ∧
    (Instr.portFrameTime none (some [0xB8])).wf = false := by decide

theorem test_wf_objects : (Instr.claimTimeout (.talk 8)).wf = false ∧ (Instr.claimTimeout (.player 2)).wf = false ∧
    (Instr.claimTimeout (.call 8)).wf = false ∧ (Instr.generatorStepEnd (.channel 2)).wf = false ∧
    (Instr.orphanReclaim 64).wf = false ∧ (Instr.layerFadeEnd 16 0).wf = false ∧ (Instr.layerFadeEnd 0 64).wf = false ∧
    (Instr.offerTimeout 8).wf = false ∧ (Instr.jobTimeout 2).wf = false := by decide

/-! ## Worked values -/

/-- A fold over bytes that evaluates its register at each byte. -/
def strictFold (f : Nat → Byte → Nat) : List Byte → Nat → Nat
  | [], r => r
  | b :: bs, 0 => strictFold f bs (f 0 b)
  | b :: bs, r + 1 => strictFold f bs (f (r + 1) b)

theorem strictFold_eq (f : Nat → Byte → Nat) (bs : List Byte) (r : Nat) : strictFold f bs r = bs.foldl f r := by
  induction bs generalizing r with
  | nil => cases r <;> rfl
  | cons b bs ih => cases r <;> exact ih _

theorem foldl_toNat {w : Nat} (g : BitVec w → Byte → BitVec w) (bs : List Byte) (r : BitVec w) :
    (bs.foldl g r).toNat = strictFold (fun n b => (g (BitVec.ofNat w n) b).toNat) bs r.toNat := by
  rw [strictFold_eq]
  induction bs generalizing r with
  | nil => rfl
  | cons b bs ih => simp only [List.foldl_cons, ih, BitVec.ofNat_toNat, BitVec.setWidth_eq]

theorem crc8_toNat (bs : List Byte) : (crc8 bs).toNat =
    strictFold (fun n b => ((bitsOf b).foldl crc8Bit (BitVec.ofNat 8 n)).toNat) bs 0 := foldl_toNat _ bs 0

theorem crc16_toNat (bs : List Byte) : (crc16 bs).toNat =
    strictFold (fun n b => ((bitsOf b).foldl crc16Bit (BitVec.ofNat 16 n)).toNat) bs 0xFFFF := foldl_toNat _ bs 0xFFFF

/-- The checks of R198 and R199 on one byte and on the nine digits. -/
theorem test_checks : crc8 [0x01] = 0x07 ∧ crc16 [0x31, 0x32, 0x33, 0x34, 0x35, 0x36, 0x37, 0x38, 0x39] = 0x29B1 := by
  decide +kernel

/-- Halves round toward plus infinity (R91): 2.5 to 3 and -2.5 to -2. -/
theorem test_rounding : scale 5 (-16) = 3 ∧ scale (-5) (-16) = -2 ∧ scale 8388607 32 = 33554428 := by decide

/-- The peak of the sine at -24 steps, and three phase increments (R108). -/
theorem test_tones : scale (sine 64) (-24) = 2965824 ∧ phaseIncrement 800 = 279620 ∧ phaseIncrement 100 = 34953 ∧
    phaseIncrement 4000 = 1398101 := by decide

/-- A fill frame takes 338 bytes, and its check is 0xAF (R15, R198). -/
theorem test_fill_frame : (Frame.fill 7 3).bytes.length = 338 ∧ (Frame.fill 7 3).damaged = true ∧
    (Frame.fill 7 3).check.toNat = 0xAF := by
  refine ⟨by decide +kernel, by decide +kernel, ?_⟩
  simp only [Frame.fill, Frame.seal, crc8_toNat]
  decide +kernel

/-! ## States of the witnesses -/

/-- A running slave in THROUGH. -/
def slave : Node := { Node.reset with
  mgmt := { Mgmt.reset with node := .running, address := 5 }
  ring := { Ring.reset with wrap := .through } }

/-- A running master in THROUGH. -/
def master : Node := { slave with
  mgmt := { slave.mgmt with fmstr := true }
  ring := { slave.ring with role := true } }

/-- A part with nothing waiting. -/
def at_rest (n : Node) : State := { node := n, pending := [] }

/-- An undamaged frame of master 5 whose slots are all stamped, free and not fresh, with its check. -/
def frame : Frame where
  seq := 255
  master := 5
  marks := 0
  alarm := 0
  fireZones := 0
  issuer := 0
  slots := List.replicate 64 (.make 0 0 true false 1)
  lane := List.replicate 8 0
  check := 160

theorem test_frame_good : frame.good = true := by
  simp only [Frame.good, decide_eq_true_eq]
  apply BitVec.eq_of_toNat_eq
  rw [crc8_toNat]
  decide +kernel

theorem test_frame_reads_back : Frame.ofBytes frame.bytes = some frame := by decide +kernel

/-- Every sealed frame is good (R2, R198). -/
theorem test_sealed_good (f : Frame) : f.seal.good = true := by
  simp only [Frame.good, Frame.seal, Frame.body, decide_eq_true_eq]

/-- The same part with a frame waiting at its primary input. -/
def waiting (n : Node) (f : Frame) : Node := { n with ring := { n.ring with westIn := .frame f } }

/-- A claim of 479 frame times. -/
def claimOf (u : User) : Claim := { user := u, cls := 7, attempts := 2, age := 479, order := 0 }

/-- A layer on its way out. -/
def leaving (id : Nat) : Layer where
  binding := id
  cls := 7
  state := .releasing
  fade := -380
  duck := -3
  target := 0
  duckCount := 23
  fresh := false
  silent := false

/-- A remote AUTO_END binding of slot 63 in zones 0 and 15, at its 48th free frame. -/
def remote : Binding where
  source := .ring 63
  cls := 7
  gain := 0
  autoEnd := true
  freeRun := 47
  owner := .remote 239 65535
  zones := 0x8001
  ending := .none

/-- A part that holds that binding under id 61. -/
def bound (n : Node) : Node :=
  ((n.setBinding 61 (some remote)).setStack 0 [leaving 61]).setStack 15 [leaving 61]

/-- A call record with the given state and role, as record 7 with serial 31, so with call id 255. -/
def withCall (n : Node) (f : CallRecord → CallRecord) : Node := n.modCall 7 fun c => f { c with serial := 31 }

/-- A signalling packet to call id 255 from node 239. -/
def signal (kind : Nat) (payload : List Byte) : Packet := { dest := 5, src := 239, kind := kind, tag := 0, payload := payload }

/-- The part with one packet in its inbound queue. -/
def hearing (n : Node) (p : Packet) : Node := { n with lane := { n.lane with inbound := [p] } }

/-- The open catalog's last entry: an extent of one sample in sector 258. -/
def catalog : List Host.Cell :=
  [(1050104, 0x3C), (1050105, 0x01), (1050106, 0x02), (1050107, 0x00), (1050108, 0x00), (1050109, 0x00), (1050110, 0x01),
    (1050111, 0x00)]

/-- A job in the given state. -/
def jobIn (st : JobState) : Job := { Job.reset with state := st, length := 1, passes := 1, passCount := 1 }

/-- The part with a job on a player. -/
def playing (n : Node) (p : Nat) (j : Job) : Node := n.modPlayer p fun q => { q with job := j, queue := [1] }

/-- An operation in the given phase at its last frame time. -/
def opIn (kind : FlashKind) (sector : Nat) (phase : FlashPhase) : FlashOp where
  kind := kind
  sector := sector
  offset := 4095
  data := [0x3C]
  phase := phase
  timer := 1919
  who := who

/-- The part with one flash operation. -/
def working (n : Node) (op : FlashOp) : Node := { n with library := { n.library with ops := [op] } }

/-! ## Witnesses -/

theorem test_witness_InvKeptByEveryStep : State.reset.Inv ∧ State.reset.Bounded ∧ (∃ t, step State.reset = .next t) ∧
    (let n : Node := { working (slave.modTalk 0 fun t => { t with state := .claiming }) (opIn .write 2047 .writing) with
       lane := { slave.lane with reservations := 2, outbound := List.replicate 6 (signal 0x94 [255, 9, 1]) } }
     (at_rest n).Inv ∧ (at_rest n).Bounded) := ⟨by decide, by decide, ⟨_, rfl⟩, by decide⟩

theorem test_witness_OtherCommandsLeaveSettings :
    writesKept (.identify who) = false ∧ ∃ t, exec (.identify who) (at_rest slave) = .next t := ⟨rfl, _, rfl⟩

theorem test_witness_OnlyFlashEventsWriteFlash :
    writesFlash (.erase who 2047) = false ∧ ∃ t, exec (.erase who 2047) (at_rest slave) = .next t := ⟨rfl, _, rfl⟩

theorem test_witness_ready : slave.ready who = true ∧ slave.ready { who with src := 1 } = true ∧ slave.ok = true ∧
    master.ready who = true ∧ master.ok = true := by decide

theorem test_witness_ReadDataReadsFlash : slave.bankBusy (bankOf 2047) = false ∧
    (working slave (opIn .write 2047 .writing)).bankBusy (bankOf 2047) = true ∧
    (working slave (opIn .write 2047 .writing)).ready who = true ∧
    (working slave (opIn .write 2047 .writing)).library.readWaits.length < 4 := by decide

theorem test_witness_NoticeGroupsOutputsAreSet : OutSource.ofCode 4 = some .zoneClass ∧ OutSource.ofCode 6 = some .contactEcho ∧
    (0x7FFF : Mask16).getLsbD 15 = false := by decide

theorem test_witness_WriteZoneReplacesTheRecord : FireZone.ofCode 16 = some .all ∧ FireZone.ofCode 15 = some (.one 15) ∧
    ZoneKind.ofCode 5 = some .exterior := by decide

theorem test_witness_SetVolumeRetargetsZones :
    0 < ((slave.modZone 15 fun r => { r with logical := 4095 }).mixer.zones.filter fun r => r.logical = 4095).length ∧
    (slave.mixer.zones.filter fun r => r.logical = 1).length = 0 := by decide

theorem test_witness_WriteStationReplacesTheRecord :
    (∀ k, k < 8 → k ≠ 7 → (slave.station k).number ≠ 9999) ∧ ∀ c ∈ slave.calls.records, c.state ≠ .idle → c.station ≠ 7 := by
  decide

theorem test_witness_WriteClassReplacesTheRecord : EqualRule.ofCode 1 = some .queue ∧ VolumeRule.ofCode 2 = some .fixed := by
  decide

theorem test_witness_SetAlarmSetsTheSource : master.ring.role = true ∧ (∀ a ∈ master.alarm.authority, a = 0) ∧
    who.src ∈ ({ master with alarm := { master.alarm with authority := [0, 239, 0, 0] } } : Node).alarm.authority := by decide

theorem test_witness_SendClaimsASlot : (slave.talk 7).state = .closed ∧ slave.hasClaim (.talk 7) = false ∧
    slave.ring.role = false ∧
    (poolOrder 7).find? (fun k => (master.reg k).owner = 0 && (master.entry k).owed = 0) = some 56 ∧
    (let full : Node := { master with slots := { master.slots with register := List.replicate 64 ⟨9, 0, 0⟩ } }
     full.ok = true ∧ full.hasClaim (.talk 0) = false ∧
       (poolOrder 0).find? (fun k => (full.reg k).owner = 0 && (full.entry k).owed = 0) = none) := by decide

theorem test_witness_UnsendReleasesTheSlot :
    (let n := (slave.modTalk 7 fun t => { t with state := .sending, slot := some 63 }).modEntry 63 fun e =>
      { e with state := .held, claim := some (claimOf (.talk 7)) }
     n.ready who = true ∧ (n.talk 7).state = .sending ∧ (n.entry 63).serves (.talk 7) = true) ∧
    (let n := (slave.modTalk 0 fun t => { t with state := .claiming }).setWaiting [claimOf (.talk 0)]
     n.ready who = true ∧ (n.talk 0).state = .claiming) := by decide

theorem test_witness_BindPlacesALayer :
    let n := slave.modZone 15 fun r => { r with logical := 4095 }
    n.ok = true ∧ n.ready who = true ∧ Source.ofBind 0 63 = some (.ring 63) ∧ Source.ofBind 2 1 = some (.player 1) ∧
      targetMalformed (.list [4095]) = false ∧ n.resolve (.list [4095]) = [15] ∧ n.stack 15 = [] ∧
      (n.classRecord 7).kinds.getLsbD (n.zone 15).kind.code = true ∧ 1 ≤ (n.classRecord 7).limit ∧ n.lowestFree = some 0 := by
  decide

/-- Zone 15 with six layers of class 7, the bottom one as given. -/
def crowded (n : Node) (bottom : Layer) : Node :=
  n.setStack 15 ((List.range 5).map (fun id => { leaving id with state := .active, fade := 0 }) ++ [bottom])

theorem test_witness_BindIsRefused :
    ({ slave with mixer := { slave.mixer with bindings := List.replicate 64 (some remote) } } : Node).lowestFree = none ∧
    slave.lowestFree.isSome = true ∧ slave.resolve (.list [4095]) = [] ∧
    (let n := slave.modZone 15 fun r => { r with logical := 4095 }
     let b : Layer := { leaving 61 with state := .active }
     n.resolve (.list [4095]) = [15] ∧
     ((n.setClass 7 { n.classRecord 7 with kinds := 0 }).classRecord 7).kinds.getLsbD (n.zone 15).kind.code = false ∧
     ((n.setClass 7 { n.classRecord 7 with limit := 0 }).classRecord 7).limit ≤
       ((n.stack 15).filter fun l => l.state ≠ .releasing ∧ l.cls = 7).length ∧
     ((crowded n b).stack 15).length = 6 ∧ (crowded n b).ready who = true ∧ 4 ≤ b.cls ∧
     ((crowded n b).classRecord 4).kinds.getLsbD (n.zone 15).kind.code = true ∧
     (((crowded n b).stack 15).filter fun l => l.state ≠ .releasing ∧ l.cls = 4).length < (n.classRecord 4).limit) := by decide

theorem test_witness_FullStacksMakeRoom :
    (crowded slave (leaving 61)).stack 15 = (((crowded slave (leaving 61)).stack 15).take 5) ++ [leaving 61] ∧
    (leaving 61).state = .releasing ∧ ({ leaving 61 with state := .active, cls := 0 } : Layer).cls < 1 ∧
    (let n := (crowded slave { leaving 63 with state := .active, cls := 6 }).modZone 15 fun r => { r with
      stack := r.stack.modify 4 fun l => { l with state := .releasing } }
     (n.stack 15)[4]?.map (·.state) = some .releasing ∧ (n.makeRoom 15 7 false).isSome = true ∧
       ((crowded slave { leaving 63 with state := .active, cls := 6 }).makeRoom 15 7 false).isSome = false) ∧
    (insertLayer (newLayer 9 7) [leaving 61, { leaving 60 with cls := 0 }]).map (·.binding) = [61, 9, 60] := by decide

/-- R56: an end that AUTO_END has begun goes on being counted, one that UNBIND has begun is not; the run stays at most 48. -/
theorem test_freeRunWhileEnding :
    let run := fun (why : Ending) (owner : Nat) =>
      (Node.freeRunStep [.make owner 7 true false 0] ((bound slave).setBinding 61 (some { remote with
        source := .ring 0, ending := why, freeRun := 48 })) 61).binding 61 |>.map (·.freeRun)
    run .autoEnd 1 = some 0 ∧ run .autoEnd 0 = some 48 ∧ run .unbound 1 = some 48 := by decide

theorem test_witness_EndingPopsTheLayers : (bound master).ok = true ∧ (bound master).binding 61 = some remote ∧
    remote.ending = .none ∧ (bound master).ready who = true ∧ remote.isRemote = true ∧
    (bound master).autoEndDue 61 = true := by decide

theorem test_witness_CallTakesARecord :
    let n : Node := { slave with calls := { slave.calls with
      stations := slave.calls.stations.set 7 { number := 9999, mic := 7, speaker := 15, auto := false } } }
    n.ok = true ∧ n.ready who = true ∧ (n.station 7).number ≠ 0 ∧ (n.station 7).number ≠ 1 ∧
      (∀ c ∈ n.calls.records, c.state ≠ .idle → c.station ≠ 7) ∧ n.availableRecord = some 0 ∧
      n.hasClaim (.call 0) = false := by decide

/-- A ringing callee with the given packet outstanding. -/
def ringing (o : Outstanding) : Node :=
  withCall slave fun c => { c with state := .ringing, role := .callee, remote := some 239, remoteId := some 9, outstanding := o
                                   listen := some 63, timer := 1439999 }

/-- An alerting caller. -/
def alerting : Node :=
  withCall slave fun c => { c with state := .alerting, role := .caller, remote := some 239, remoteId := some 9
                                   listen := some 63, timer := 1439999, path := 47 }

/-- A caller in OFFERING. -/
def offering : Node := withCall slave fun c => { c with state := .offering, role := .caller, timer := 47999 }

theorem test_witness_AnswersConnectOrEnd :
    (ringing .none).ok = true ∧ (ringing .none).ready who = true ∧ (ringing .none).recordOf 255 = some 7 ∧
    ((ringing .none).call 7).answerPending = false ∧ ((ringing .ringing).call 7).outstanding ≠ .none ∧
    (((ringing .none).reserve.popLayers none (.call 7)).callPush 7 (.ring 63)).2 = some 0 ∧
    (let full := (ringing .none).setClass 0 { slave.classRecord 0 with limit := 0 }
     full.ok = true ∧ (full.reserve.callPush 7 (.ring 63)).2 = none ∧ full.ready who = true ∧ full.recordOf 255 = some 7) ∧
    (let p := signal 0x92 [255, 9]
     (hearing alerting p).ok = true ∧ (hearing alerting p).recordOf (byteAt p.payload 0) = some 7 ∧
       ((hearing alerting p).call 7).matchesPacket p (byteAt p.payload 1) = true) := by decide

theorem test_witness_PlayStartsAJob :
    let n := slave.setFlash catalog
    n.ok = true ∧ n.ready who = true ∧ n.bankBusy 0 = false ∧ n.players.waits = [] ∧
      n.checkPlay args = .ok (0, { start := 258, length := 1, trim := 0 }) ∧ n.hasClaim (.player 0) = false :=
  ⟨by decide, by decide, by decide, by decide, rfl, by decide⟩

theorem test_witness_PlayRefusedAnswersTheCheck : slave.checkPlay args = .error .notFound := rfl

theorem test_witness_StopEndsTheJob : (playing slave 1 (jobIn .playing)).ok = true ∧
    (playing slave 1 (jobIn .playing)).ready who = true ∧ ((playing slave 1 (jobIn .playing)).player 1).job.running = true ∧
    ((playing slave 0 { jobIn .waiting with binding := some 61 }).player 0).job.running = true := by decide

/-- R163: a STOP at the frame time of the end of a pass, taken first, closes the stream; one taken before it leaves it open. -/
theorem test_stopAtTheLastPair :
    let n := fun (half : Half) (early : List Share) =>
      { (playing slave 1 { jobIn .playing with half := half, binding := some 61 }).modPlayer 1
        (fun q => { q with streamOpen := true }) with early := early }
    let stopped := fun (half : Half) (early : List Share) => ((n half early).reserve.stopNow who 1).player 1
    (n .second []).ok = true ∧ (n .second []).ready who = true ∧ (n .first []).ok = true ∧
    (stopped .second []).streamOpen = false ∧ (stopped .second []).queue = [] ∧ (stopped .first []).streamOpen = true ∧
      (stopped .second [.player 1]).queue = [1] := by decide

theorem test_witness_FlashCommandsStart : slave.library.ops = [] ∧ slave.sectorPlayed 2047 = false ∧
    slave.sectorPlayed 0 = false ∧ slave.pins.siglock = false ∧ slave.deferred 0 = false ∧ slave.deferred 1 = false := by decide

/-- A signal sector whose image is taken: its marker, its check, and every other byte 0xFF. -/
def sectorFlash : List Host.Cell := [(0, 0xA0), (1, 0x51), (882, 0x99), (883, 0x68)]

theorem test_sector_taken : imageTaken (slave.setFlash sectorFlash).signalImage 0x51 = true := by
  simp only [imageTaken, Bool.and_eq_true, decide_eq_true_eq, crc16_toNat]
  decide +kernel

theorem test_witness_ReloadReplacesTheTables : slave.alarmActive = false ∧ imageTaken slave.signalImage 0x51 = false ∧
    (slave.setFlash sectorFlash).alarmActive = false ∧ (slave.setFlash sectorFlash).ok = true :=
  ⟨by decide, by decide +kernel, by decide, by decide⟩

theorem test_witness_TakeCommandRunsTheHead :
    (let n := hearing slave (signal 0x12 [15])
     n.lane.inbound = signal 0x12 [15] :: [] ∧ n.takesCommands = true ∧
      commandOf 0x12 [15] { src := 239, tag := 0 } = .command (.readZone { src := 239, tag := 0 } 15)) ∧
    (let p : Packet := { signal 0x12 [15] with dest := 254 }
     let f : Follow := { window := 31, next := 7, bytes := p.window.take 56, whole := true, job := .receive }
     Packet.ofWindow (f.bytes ++ p.window.drop 56) = some p ∧ byteAt (f.bytes ++ p.window.drop 56) 1 = 254 ∧
      (0x4000 : BitVec 15).getLsbD 14 = true ∧ slave.mgmt.address ≠ 254 ∧ slave.lane.inbound.length < 4 ∧
      Packet.ofWindow (List.replicate 64 0) = none ∧
      4 ≤ ({ slave with lane := { slave.lane with inbound := List.replicate 4 p } } : Node).lane.inbound.length) := by
  decide +kernel

theorem test_witness_ResetsStartTheNode :
    ({ slave with mgmt := { slave.mgmt with held := true } } : Node).mgmt.held = true ∧
    ({ slave with mgmt := { slave.mgmt with restart := some 4799 } } : Node).mgmt.restart = some 4799 ∧
    (∀ op ∈ (working slave (opIn .write 2047 .waiting)).library.ops.head?, op.phase = .waiting) ∧
    (Node.reset.mgmt.node = .starting ∧ Node.reset.mgmt.cause = .power) ∧ slave.mgmt.node ≠ .starting := by decide

/-- A config image that is taken: its marker, its check, and every other byte 0xFF. -/
def configFlash : List Host.Cell := [(1052672, 0xA0), (1052673, 0x57), (1052926, 0xF3), (1052927, 0xEC)]

theorem test_config_taken : imageTaken (Node.reset.setFlash configFlash).configInFlash 0x57 = true ∧
    (at_rest (Node.reset.setFlash configFlash)).Inv := by
  refine ⟨?_, by decide⟩
  simp only [imageTaken, Bool.and_eq_true, decide_eq_true_eq, crc16_toNat]
  decide +kernel

theorem test_witness_StartUpLoadsAndLeaves : State.reset.Inv ∧ Node.reset.mgmt.node = .starting ∧
    Node.reset.mgmt.held = false ∧ Node.reset.mgmt.configRead = false ∧ imageTaken Node.reset.configInFlash 0x57 = false ∧
    (let n : Node := { Node.reset with
      mgmt := { Mgmt.reset with configRead := true, address := 239 }, ring := { Ring.reset with counter := 1 } }
     (at_rest n).Inv ∧ n.mgmt.configRead = true ∧ 1 ≤ n.ring.counter ∧ isAddress n.mgmt.address = true) := by decide +kernel

theorem test_witness_FrameTimeCounts : slave.mgmt.held = false ∧ slave.mgmt.restart = none ∧
    slave.mgmt.node ≠ .starting ∧ ({ slave with mgmt := { slave.mgmt with held := true } } : Node).mgmt.held = true ∧
    ({ slave with ring := { slave.ring with counter := 4294967295 } } : Node).ring.counter + 1 = 4294967296 ∧
    Tx.reset.store ++ [some frame] = some frame :: [] ∧
    ({ Tx.reset with lastSeq := some 255, store := [none] } : Tx).store ++ [some frame] = none :: [some frame] := by decide

/-- A running slave's frame time ends in a node that has left STARTING. -/
theorem test_witness_RunningFrameTime : slave.counts.resumeStep.sounds.flashStep.periodStep.ringTick.mgmt.node ≠ .starting ∧
    ({ slave with ring := { slave.ring with wrap := .isolated } } : Node).ring.wrap = .isolated := by decide +kernel

/-- A port that has 16 good frames in order but one, a full window but one, and one check error below the threshold. -/
def portIn (st : PortState) : PortRecord where
  state := st
  silent := 7
  expected := some 255
  run := 15
  windowPos := 4799
  windowErrors := 23
  totalErrors := 65535
  lockLosses := 255
  lockedRun := 95999
  usedSinceReset := true
  inUse := false

theorem test_damaged_check : ({ frame with check := 161 } : Frame).good = false := by
  simp only [Frame.good, decide_eq_false_iff_not, ← BitVec.toNat_inj, crc8_toNat]
  decide +kernel

theorem test_witness_PortEventsChangeThePort :
    Frame.ofBytes ({ frame with check := 161 } : Frame).bytes = some { frame with check := 161 } ∧
    (portIn .acquiring).expected = some frame.seq.toNat ∧ (portIn .acquiring).run = 15 ∧ 7 ≤ (portIn .locked).silent ∧
    slave.ring.threshold ≤ (portIn .locked).windowErrors + 1 ∧ (portIn .locked).windowPos = 4799 ∧
    slave.ring.hold ≤ (portIn .locked).lockedRun + 1 := by decide +kernel

theorem test_witness_FramesFeedTheLastGoodStore : (∀ f, (waiting slave f).waitingFrame = some (.west, f)) ∧
    (waiting slave frame).mgmt.restart = none ∧ (∀ f, (waiting master f).waitingFrame = some (.west, f)) ∧
    frame.master.toNat = master.mgmt.address ∧ ({ frame with marks := 1 } : Frame).damaged = true ∧
    (∀ f, ({ waiting slave f with mgmt := { slave.mgmt with held := true } } : Node).waitingFrame = some (.west, f)) :=
  ⟨fun _ => rfl, rfl, fun _ => rfl, by decide, by decide, fun _ => rfl⟩

/-- At a running slave with no RESTART taken, the control lane of a frame does not restart the part. -/
theorem test_witness_SlaveFrame :
    ((((slave.readWord frame.word).slotFrame frame.slots).node.freeRuns frame.slots).pathCounts frame.slots |>.laneFrame
      frame.seq.toNat frame.lane).restarts = false ∧ (slave.readWord frame.word).mgmt.node = .running := by
  have hk : ∀ m : Node, m.kept = slave.kept → (m.laneFrame frame.seq.toNat frame.lane).restarts = false ∧
      m.mgmt.node = .running := fun m h =>
    ⟨Node.laneFrame_restarts m _ _ (congrArg Kept.restarting h), congrArg Kept.node h⟩
  exact ⟨(hk _ (by simp)).1, (hk _ (by simp)).2⟩

theorem test_witness_MasterResumes :
    (let n : Node := { master with ring := { master.ring with role := false, quiet := 47999 } }
     n.mgmt.fmstr = true ∧ n.ring.role = false ∧ n.mgmt.node = .running ∧ n.waitingFrame = none) ∧
    (let n := fun k : Byte => ({ waiting master (Frame.seal { frame with master := k }) with
       ring := { (waiting master (Frame.seal { frame with master := k })).ring with quiet := 48000 } } : Node)
     (∀ k, (n k).waitingFrame = some (.west, Frame.seal { frame with master := k })) ∧ (∀ k, (at_rest (n k)).Inv) ∧
       (∀ k, (Frame.seal { frame with master := k }).damaged = frame.damaged ∧ frame.damaged = false) ∧ (4 : Byte).toNat < master.mgmt.address ∧
       master.mgmt.address < (6 : Byte).toNat) :=
  ⟨by decide, fun _ => rfl, fun _ => rfl, fun _ => ⟨rfl, by decide⟩, by decide, by decide⟩

theorem test_witness_SlotTimersExpire :
    (let n := (waiting master frame).setReg 63 { owner := 239, cls := 7, orphan := 479 }
     n.waitingFrame = some (.west, frame) ∧ frame.damaged = false ∧
      (headerOf frame.slots 63).stamped = true ∧ (headerOf frame.slots 63).fresh = false ∧ (n.reg 63).owner ≠ 0 ∧
      n.ring.orphanLimit ≤ (n.reg 63).orphan + 1) ∧
    ((slave.modEntry 0 fun e => { e with owed := 1 }).entry 0).owed = 1 ∧
    (let h : Headers := List.replicate 64 (.make 239 7 false true 0)
     (headerOf h 63).stamped = false ∧ (headerOf h 63).ownerOf ≠ 0 ∧ 6 ≤ (headerOf h 63).classOf) ∧
    (headerOf (List.replicate 64 SlotField.empty) 55).ownerOf = 0 ∧
    (headerOf (List.replicate 64 (.make 239 7 true true 0)) 0).fresh = true := by decide +kernel

theorem test_witness_ClaimTimeoutTellsTheUser :
    (let n := (slave.modTalk 7 fun t => { t with state := .claiming }).setWaiting [claimOf (.talk 7)]
     n.ok = true ∧ n.openClaim (.talk 7) = some (claimOf (.talk 7)) ∧ (n.talk 7).state = .claiming) ∧
    (let n := (withCall slave fun c => { c with state := .claiming, role := .caller }).setWaiting [claimOf (.call 7)]
     n.openClaim (.call 7) = some (claimOf (.call 7)) ∧ (n.call 7).state = .claiming) ∧
    (let n := (playing slave 1 (jobIn .claiming)).setWaiting [claimOf (.player 1)]
     n.openClaim (.player 1) = some (claimOf (.player 1)) ∧ (n.player 1).job.running = true) := by decide

theorem test_witness_ClaimsAtAFrame :
    (let n := slave.modEntry 63 fun e => { e with state := .claiming, claim := some (claimOf (.talk 7)) }
     (n.entry 63).state = .claiming ∧ (n.entry 63).claim = some (claimOf (.talk 7)) ∧ 2 ≤ (claimOf (.talk 7)).attempts) ∧
    ((slave.modEntry 63 fun e => { e with owed := 480 }).entry 63).state = .idle ∧
    (headerOf (List.replicate 64 (.make 5 7 true true 0)) 63).ownerOf = slave.mgmt.address ∧
    (headerOf (List.replicate 64 (.make 239 7 true true 0)) 63).ownerOf ≠ slave.mgmt.address ∧
    (let usable := fun k => (headerOf frame.slots k).stamped && decide ((headerOf frame.slots k).ownerOf = 0) &&
       decide ((slave.entry k).state = .idle) && decide ((slave.entry k).owed = 0)
     (poolOrder 7).find? usable = some 56 ∧ (poolOrder 5).find? usable = some 0) := by decide +kernel

theorem test_witness_FadeEndRemovesTheLayer : layerOf ((bound slave).stack 15) 61 = some (leaving 61) ∧
    (bound slave).ok = true ∧ (bound slave).binding 61 = some remote ∧
    remote.zones &&& ~~~(BitVec.twoPow 16 15) ≠ 0 ∧
    (let n := (slave.setBinding 0 (some { remote with zones := 1 })).setStack 0 [leaving 0]
     layerOf (n.stack 0) 0 = some (leaving 0) ∧ n.binding 0 = some { remote with zones := 1 } ∧
       (1 : Mask16) &&& ~~~(BitVec.twoPow 16 0) = 0) := by decide

theorem test_witness_RampsMoveOneStep :
    (let n := slave.modZone 15 fun r => { r with volTarget := -384, volCount := 11 }
     n.ok = true ∧ Share.volume 15 ∉ n.early ∧ (n.zone 15).vol ≠ (n.zone 15).volTarget ∧ 11 ≤ (n.zone 15).volCount) ∧
    Share.duck 15 61 ∉ (bound slave).early ∧ (leaving 61).duck < (leaving 61).target ∧ 23 ≤ (leaving 61).duckCount ∧
    ({ leaving 61 with target := -385 } : Layer).target < (leaving 61).duck := by decide

theorem test_witness_ContactDebounceChangesTheContact :
    (let n := slave.modContact 1 fun c => { c with enabled := true, run := 959, code := 15, mask := 0x8000 }
     n.ok = true ∧ n.library.ops = [] ∧ (n.contact 1).enabled = true ∧ 959 ≤ (n.contact 1).run ∧
      decide (n.pins.contact1 = (n.contact 1).activeHigh) ≠ (n.contact 1).asserted ∧ n.alarm.contacts.length = 2) ∧
    (let w : AlarmWord := { set := true, code := 15, mask := 0x8000, issuer := 239 }
     ({ slave.alarm with candidate := w } : Alarm).candidate = w ∧ w ≠ slave.alarm.confirmed ∧ w ≠ slave.alarm.candidate ∧
      ({ slave.alarm with confirmed := w } : Alarm).fireEntry 15 = { code := 15, source := .ring } ∧
      (slave.alarm.fireEntry 0).source = .none) ∧
    (slave.zone 15).fireZone = .all ∧ ({ slave.zone 15 with fireZone := .one 15 } : Zone).fireZone = .one 15 := by decide

/-- A generator at the last output of a step. -/
def tone (step signal : Nat) : Generator :=
  { state := .running, signal := signal, step := step, timer := 479999, phase := 0, out := 0 }

theorem test_witness_GeneratorStepsGoOn :
    let n := (slave.modChannel 1 fun c => { c with gen := tone 15 0 })
    n.ok = true ∧ Share.generator (.channel 1) ∉ n.early ∧ (n.generator (.channel 1)).state = .running ∧
      ((n.alarm.signalOf 0).steps.getD 15 ⟨0, 0, 10⟩).ms * 48 ≤ (n.generator (.channel 1)).timer + 1 ∧
      ((n.alarm.signalOf 0).steps.length = 16 ∧ (n.alarm.signalOf 0).loop = some 0) ∧
      ((n.alarm.signalOf 5).steps.length = 3 ∧ (n.alarm.signalOf 5).loop = none) := by decide

/-- A channel in SIGNAL at the end of its period, with message 63 for its code. -/
def period (a : Nat) : Node :=
  let n := slave.modChannel a fun c => { c with phase := .signal, signal := some 0, code := 1, timer := 1439999 }
  { n with alarm := { n.alarm with codeMap := n.alarm.codeMap.set 1 { signal := some 0, message := some 63, period := 30 } } }

/-- The protected catalog's last entry: an extent of one sample in sector 2. -/
def protectedCatalog : List Host.Cell :=
  [(4600, 0x3C), (4601, 0x00), (4602, 0x02), (4603, 0x00), (4604, 0x00), (4605, 0x00), (4606, 0x01), (4607, 0x00)]

theorem test_witness_AlarmPeriodsEnd : (period 1).ok = true ∧ ((period 1).channel 1).phase = .signal ∧
    ((period 1).codeEntry ((period 1).channel 1).code).period * 48000 ≤ ((period 1).channel 1).timer + 1 ∧
    (period 1).periodDue 0 = false ∧ (period 1).voiceEntry 1 = none ∧
    ((period 0).setFlash protectedCatalog).voiceEntry 0 = some { start := 2, length := 1, trim := 0 } := by decide

theorem test_witness_SignalsFindTheirChannels :
    (let n := period 0
     n.alarm.channels.length = 2 ∧ (n.channel 0).phase = .signal ∧ (n.channel 0).signal = some 0 ∧
      (n.channel 1).phase ≠ .voice ∧ (n.channel 1).phase ≠ .signal ∧ n.binding 62 = none ∧
      ((n.setBinding 62 (some remote)).binding 62).isSome = true) ∧
    slave.desiredChannel [] 15 = slave.currentChannel 15 ∧
    (let n := (slave.setBinding 63 (some { remote with owner := .channel 1 })).setStack 15 [{ leaving 63 with state := .active }]
     n.desiredChannel [] 15 ≠ n.currentChannel 15) := by decide

/-- A voice at its last output. -/
def lastVoice : Voice := { start := 2, length := 1, trim := 0, position := 0, half := .second }

theorem test_witness_VoiceEndsInSignal :
    let n := ((period 1).modChannel 1 Channel.beginVoice).modPlayer 1 fun p => { p with voice := some lastVoice, queue := [1] }
    n.ok = true ∧ n.library.ops = [] ∧ n.voiceChannel = some 1 ∧ (n.player 1).voice = some lastVoice ∧
      lastVoice.position + 1 = lastVoice.length ∧ (n.player 1).underrunPair = false ∧ (n.player 1).queue = 1 :: [] := by decide

theorem test_witness_OfferTakesARecord :
    let p := signal 0x90 [0, 1, 0x27, 0x0F, 9, 7, 63]
    let n := hearing { slave with calls := { slave.calls with
      stations := slave.calls.stations.set 7 { number := 9999, mic := 7, speaker := 15, auto := false } } } p
    n.ok = true ∧ byteAt p.payload 5 = 7 ∧ byteAt p.payload 6 ≤ 63 ∧ n.calledStation (natOf (slice p.payload 2 2)) = some 7 ∧
      n.offerRepeats p = false ∧ n.availableRecord = some 0 ∧ n.stationBusy 7 = false ∧
      liveCount (n.stack 15) 7 < (n.classRecord 7).limit ∧ n.ring.role = false ∧ n.hasClaim (.call 0) = false := by decide

theorem test_witness_OfferingHearsTheCallee : (hearing offering (signal 0x91 [255, 9, 63])).ok = true ∧
    (hearing offering (signal 0x91 [255, 9, 63])).recordOf 255 = some 7 ∧ Reason.ofCode 12 = some .gone ∧
    byteAt (signal 0x93 [255, 9, 1, 12]).payload 3 = 12 := by decide

theorem test_witness_CallsEndWithTheirReason : offering.ready who = true ∧ offering.recordOf 255 = some 7 ∧
    (offering.call 7).firstReject = none ∧ (alerting.call 7).supervises = true ∧
    (waiting alerting frame).waitingFrame = some (.west, frame) ∧ (headerOf frame.slots 63).stamped = true ∧
    (alerting.call 7).remote ≠ some (headerOf frame.slots 63).ownerOf ∧ frame.damaged = false ∧
    (hearing alerting (signal 0x94 [255, 9, 1])).recordOf 255 = some 7 ∧ (alerting.call 7).remote = some 239 ∧
    Reason.ofCode 1 = some .hangup ∧ ((ringing .none).call 7).timer = 1439999 := by decide +kernel

/-- A master with an alerting caller whose listen slot its register shows free. -/
def supervising (a : Arrival) : Node :=
  let n := withCall master fun _ => alerting.call 7
  { n with ring := { n.ring with westIn := a } }

theorem test_witness_CallsEndAtTheMaster : (supervising (.frame frame)).waitingFrame = some (.west, frame) ∧
    (supervising .none).ring.wrap.primary = some .west ∧ ((supervising .none).call 7).changed = false ∧
    ((supervising .none).call 7).remote ≠ some (headerOf (supervising .none).registerHeaders 63).ownerOf ∧
    (supervising .none).ok = true ∧ (headerOf (supervising .none).registerHeaders 63).stamped = true := by decide +kernel

/-- R138: at a master a held frame time keeps the path count, and another one counts a stamped header of another owner. -/
theorem test_masterHeldTimeKeepsThePath :
    let path := fun (a : Arrival) => (((supervising a).modCall 7 fun c => { c with path := 46 }).readGenerated
      (supervising a).registerHeaders).call 7 |>.path
    path .none = 46 ∧ path (.taken true) = 46 ∧ path (.taken false) = 47 := by decide +kernel

/-- A contact that the coming frame time asserts. -/
def pressing : Node :=
  slave.modContact 0 fun c => { c with enabled := true, activeHigh := true, code := 1, mask := 0xFFFF, run := 959 }

/-- R191, R85: an alarm layer that a contact brings after the zone computations belongs to the next frame time, and so ALARM_ANY
shows it there, while CONTACT_ECHO shows the contact at once. -/
theorem test_outputsFollowTheZoneComputation :
    let echo : Selection := { source := .contactEcho, invert := false, zones := 0, kinds := 0, param := 0 }
    let n := { pressing with mgmt := { pressing.mgmt with outputs := pressing.mgmt.outputs.set 0 echo } }
    let m := n.frameTick { restingPins with contact0 := true }
    (m.stack 0).any Layer.live = true ∧ m.mgmt.driven.take 2 = [true, false] ∧
      (m.endFrame (m.foundStacks zoneIndices)).mgmt.driven.take 2 = [true, true] := by decide +kernel

theorem test_witness_SendListHandsOff :
    let e : SendEntry := { packet := signal 0x94 [255, 9, 1], tie := none }
    let n := slave.setSendList [e]
    n.calls.sendList = e :: [] ∧ n.lane.outbound.length + n.lane.reservations < 7 ∧
      7 ≤ ({ n with lane := { n.lane with reservations := 7 } } : Node).lane.outbound.length + 7 ∧ n.lane.follow = none ∧
      (List.replicate 8 (0 : Byte)).length = 8 ∧
      Packet.ofWindow (e.packet.window.take 56 ++ e.packet.window.drop 56) = some e.packet := by decide +kernel

theorem test_witness_WaitingJobsGoOn : (playing slave 1 { jobIn .waiting with timer := 1439999 }).ok = true ∧
    ((playing slave 1 { jobIn .waiting with timer := 1439999 }).player 1).job.state = .waiting ∧
    ∀ z, z ≤ 15 → ∀ l ∈ (bound slave).stack z, some 61 = some l.binding → l.state ≠ .held := by decide

/-- R155: a last pass that begins with its stream at the end of the extent is fed from sample 0, and not past its end. -/
theorem test_lastPassAfterAStall :
    let s : Stream := { start := 258, length := 3, position := 0, due := false }
    (slave.streamBatch s (fun _ => false) (s.allowance 0) 3 []).1 = 3 ∧
      (slave.streamBatch s (fun _ => false) (s.allowance 0) 3 []).2.length = 3 ∧ s.allowance 3 = 0 ∧
      { s with due := true }.allowance 500 = 12 := by decide

/-- R15: a wrap change between feed mode and WRAP_EAST is a change of source at a master; feed mode to ISOLATED is none. -/
theorem test_wrapChangeTurnsTheTransmitter :
    let ring := fun (w : WrapState) => { master with ring := { master.ring with wrap := w, turnRepeat := false } }
    let source := fun (w : WrapState) => ((ring w).sendGenerated .generated (Frame.fill 1 0)).ring.txWest.source
    source .wrapEast = .generatedTurned ∧ source .through = .generated ∧ source .isolated = .generated := by decide

theorem test_witness_PassesFollowEachOther :
    let n := playing slave 0 { jobIn .playing with half := .second }
    n.ok = true ∧ Share.player 0 ∉ n.early ∧ (n.player 0).voice = none ∧ (n.player 0).underrunPair = false ∧
      (n.player 0).queue ≠ [] ∧ (n.player 0).job.position + 1 = (n.player 0).job.length ∧ (n.player 0).job.passes ≠ 0 ∧
      (n.player 0).job.passes ≤ (n.player 0).job.passCount ∧
      ((playing slave 1 { jobIn .gap with gap := 480000, timer := 479999 }).player 1).job.gap ≤ 479999 + 1 := by decide

theorem test_witness_FlashPhasesChangeTheirSector : (working slave (opIn .erase 2047 .erasing)).ok = true ∧
    (working slave (opIn .erase 2047 .erasing)).tookFlash = false ∧ 1919 ≤ (opIn .erase 2047 .erasing).timer ∧
    (12 * (opIn .write 0 .writing).data.length + 24) / 25 ≤ (opIn .write 0 .writing).timer + 1 := by decide

theorem test_witness_SiglockAbandonsProtectedWork :
    (∀ op ∈ (working slave (opIn .write 256 .writing)).library.ops.head?, op.phase = .waiting ∨ 256 ≤ op.sector ∨
      op.kind = .save ∨ op.kind = .reload) ∧
    (opIn .write 255 .writing).phase ≠ .waiting ∧
    (opIn .write 255 .writing).offset + (opIn .write 255 .writing).data.length ≤ 4096 := by decide

theorem test_witness_PacketsReadBack : (List.replicate 55 (0xFF : Byte)).length ≤ 55 ∧
    Packet.ofWindow (signal 0x94 [255, 9, 1]).window = some (signal 0x94 [255, 9, 1]) := by decide +kernel

theorem test_witness_AcquiringUpdatesTheRun : (portIn .acquiring).state = .acquiring ∧ (portIn .acquiring).run < 16 ∧
    (portIn .acquiring).expected = some frame.seq.toNat := by decide

theorem test_witness_SelectorsMatchZones : (slave.zone 0).hitBy (.selector 0x8000 1) =
    (({ slave.zone 0 with logical := 4095 } : Zone).hitBy (.selector 0x8000 1)) ∧
    (∀ f, (slave.zone 0).fireZone = .one f → f ≤ 15) := by
  refine ⟨by decide, fun f h => ?_⟩
  exact absurd h (by simp [slave, Node.reset, Node.zone, Mixer.reset, Zone.reset, List.getD])

theorem test_witness_PoolOrderByClass : (poolOrder 6).find? (fun k => k == 0) = some 0 ∧
    (headerOf (List.replicate 64 (.make 239 5 false true 0)) 63).ownerOf ≠ 0 ∧
    (headerOf (List.replicate 64 (.make 239 5 false true 0)) 63).classOf ≤ 5 := by decide

theorem test_witness_AccumulatorIsTheSum :
    (bound slave).ok = true ∧ (bound slave).binding 61 = some remote ∧
    (slave.stack 0 = [] ∧ ∀ l ∈ slave.stack 0, l.state = .releasing → l.fresh = false → -380 < l.fade) ∧
    ({ leaving 61 with state := .active, fade := -384, duck := 0 } : Layer).duck ≠ -385 ∧
    -384 ≤ remote.gain + 0 + (-384) + (slave.zone 0).vol := by decide

end Sys2Proof.Tests
end

section
/-! PROOF. The deck ring, first part: the state right after reset (O3), the frame of the rows that write no setting (O6), and the
commands of the ring and of status that answer at once (O10, O12). -/

namespace Sys2Proof.Machine

/-! ## Right after reset (R3, R4, R11, R13) -/

/-- A table of one record repeated reads that record at every index, also past its end. -/
theorem getD_replicate_default {α : Type} (k m : Nat) (x : α) : (List.replicate m x).getD k x = x := by
  rw [List.getD_eq_getElem?_getD]
  exact List.getElem?_getD_replicate_default_eq x m k

/-- Settles O3: every table of a part right after reset is one record, repeated, so each entry reads its reset value. -/
theorem resetValues : Obligations.ResetValues := by
  unfold Obligations.ResetValues
  have entries (k : Nat) : State.reset.node.entry k = .reset := getD_replicate_default k 64 _
  have registers (k : Nat) : State.reset.node.reg k = .reset := getD_replicate_default k 64 _
  have zones (z : Nat) : State.reset.node.zone z = .reset := getD_replicate_default z 16 _
  have bindings (id : Nat) : State.reset.node.binding id = none := getD_replicate_default id 64 _
  have calls (r : Nat) : State.reset.node.call r = .reset := getD_replicate_default r 8 _
  have players (p : Nat) : State.reset.node.player p = .reset := getD_replicate_default p 2 _
  refine ⟨rfl, rfl, rfl, rfl, rfl, rfl, rfl, rfl, rfl, rfl, fun k _ => ?_, fun z _ => ?_, bindings, fun r _ => ?_, fun p _ => ?_,
    rfl, rfl, rfl, rfl, fun a => rfl⟩
  · rw [entries, registers]; exact ⟨rfl, rfl⟩
  · rw [Node.stack, zones]; exact ⟨rfl, rfl, rfl⟩
  · rw [calls]; rfl
  · rw [players]; rfl

/-! ## What a row leaves alone -/

/-- A command leaves the kept fields alone when its work does. -/
theorem Node.taken_kept (n : Node) (who : Req) {work : Node → Node} (hw : ∀ m, (work m).kept = m.kept) :
    (n.taken who work).kept = n.kept := by
  unfold Node.taken
  split
  · split
    · exact (hw _).trans n.reserve_kept
    · rfl
  · rfl

/-- A volume ramp moves no setting of its zone (R82). -/
@[simp] theorem Node.volumeStep_kept (n : Node) (z : Nat) : (n.modZone z Zone.rampVolume).kept = n.kept := by
  refine n.modZone_kept z _ fun r => ?_
  unfold Zone.rampVolume
  repeat' split
  all_goals rfl

/-- A row leaves the kept fields alone when its work on the part does. -/
theorem kept_of_row {work : Node → Node} {s t : State} (h : onNode work s = .next t) (hw : ∀ n, (work n).kept = n.kept) :
    t.node.kept = s.node.kept := by
  cases h
  exact hw s.node

/-- The row of a command, by its work once taken. -/
theorem kept_of_command {who : Req} {work : Node → Node} {s t : State}
    (h : onNode (fun n => n.taken who work) s = .next t) (hw : ∀ m, (work m).kept = m.kept) : t.node.kept = s.node.kept :=
  kept_of_row h fun n => n.taken_kept who hw

/-- The row of an event that changes nothing while it is not due (log 2). -/
theorem kept_of_due {due : Node → Prop} [∀ n, Decidable (due n)] {work : Node → Node} {s t : State}
    (h : onNode (fun n => if due n then work n else n) s = .next t) (hw : ∀ m, (work m).kept = m.kept) :
    t.node.kept = s.node.kept := by
  refine kept_of_row h fun n => ?_
  split
  · exact hw n
  · rfl

/-- Settles O6, by the three shapes of a row: a command, an event that must be due, and an event whose work tests its own condition. -/
theorem otherCommandsLeaveSettings : Obligations.OtherCommandsLeaveSettings := by
  intro c s t hc h
  cases c
  case send | unsend | readSlots | readZone | bind | unbind | readBinding | writeClass | readClass | readStack | setAlarm |
      readAlarm | call | answer | hangup | readCalls | play | stop | readPlayers | erase | writeData | readData | saveConfig |
      reloadSignals | identify | readStatus =>
    dsimp only [exec] at h
    exact kept_of_command h fun m => by simp
  case orphanReclaim | claimTimeout | releaseOwedExpiry | layerFadeEnd | volumeStep | duckLiftStep | contactDebounce |
      generatorStepEnd | alarmPeriodEnd | jobTimeout | passEnd | gapEnd | offerTimeout | alertingTimeout | ringingTimeout =>
    dsimp only [exec] at h
    exact kept_of_due h fun m => by simp
  case autoEnd | voiceEnd | pathLost | sendListHandoff | waitGateOpen =>
    dsimp only [exec] at h
    exact kept_of_row h fun n => by simp
  all_goals cases hc

/-! ## Commands that answer at once (R22, R23, R59, R102, R194) -/

/-- The row of a command that the part is ready to take carries it out with its response reserved. -/
theorem onNode_taken {s : State} {who : Req} (h : s.node.ready who = true) (work : Node → Node) :
    onNode (fun n => n.taken who work) s = .next { s with node := work s.node.reserve } := by
  rw [onNode, Node.taken_ready h]

/-- Settles O10: each answer goes into the reservation that its command made, so the clearing is all that is left of it. -/
theorem clearingReadsClear : Obligations.ClearingReadsClear := by
  intro who s h
  have readZone (z : Nat) (hz : z ≤ 15) (n : Node) : n.readZone who z =
      (n.modZone z fun r => { r with clips := 0 }).respond who 0x12 .ok (n.zone z).report := if_neg (by omega)
  refine ⟨onNode_taken h _, fun z hz => (onNode_taken h _).trans ?_, onNode_taken h _, onNode_taken h _⟩
  rw [readZone z hz]
  rfl

/-- Settles O12: the response goes into the reservation that the command made. -/
theorem setRingParametersClamps : Obligations.SetRingParametersClamps := fun _ _ _ _ _ h => onNode_taken h _

end Sys2Proof.Machine
end

section
/-! PROOF. The receive ports: a frame in ACQUIRING (O55), the frame time of the receivers (O35) and the five port events (O36). -/

namespace Sys2Proof.Machine

/-! ## One frame time of a receive port (R5-R8) -/

/-- A frame at a port in ACQUIRING (R6). -/
theorem PortRecord.tick_acquiring {p : PortRecord} (threshold : Nat) (f : Frame) (hs : p.state = .acquiring) :
    p.tick threshold (some f) = { p with silent := 0 }.acquire f := by
  simp [PortRecord.tick, hs]

/-- A frame at a port in LOCKED or DEGRADED (R7). -/
theorem PortRecord.tick_tracking {p : PortRecord} (threshold : Nat) (f : Frame) (hs : p.state = .locked ∨ p.state = .degraded) :
    p.tick threshold (some f) = { p with silent := 0 }.track threshold f := by
  rcases hs with hs | hs <;> simp [PortRecord.tick, hs]

/-- The run count that a frame leaves at a port in ACQUIRING (R6). -/
def PortRecord.runAfter (p : PortRecord) (f : Frame) : Nat :=
  if f.good then (if p.expected = some f.seq.toNat then p.run + 1 else 1) else 0

/-- The sequence number expected after a frame at a port in ACQUIRING (R6). -/
def PortRecord.expectedAfter (p : PortRecord) (f : Frame) : Option Nat :=
  if f.good then some (nextSeq f.seq.toNat) else p.expected.map nextSeq

/-- A frame in ACQUIRING sets the run count and the expected sequence, and locks the port at a run of 16 (R6). -/
theorem PortRecord.acquire_eq (p : PortRecord) (f : Frame) :
    p.acquire f = if 16 ≤ p.runAfter f then { p with run := 16, expected := p.expectedAfter f }.lock
      else { p with run := p.runAfter f, expected := p.expectedAfter f } := by
  unfold PortRecord.acquire PortRecord.runAfter PortRecord.expectedAfter
  cases f.good <;> rfl

/-- A frame in order that reaches a tracking port counts in its error window (R7). -/
theorem PortRecord.tick_inOrder {p : PortRecord} (threshold : Nat) {f : Frame} (hs : p.state = .locked ∨ p.state = .degraded)
    (hg : f.good = true) (he : p.expected = some f.seq.toNat) :
    p.tick threshold (some f) = { p with silent := 0, expected := p.expected.map nextSeq }.window threshold := by
  rw [tick_tracking threshold f hs]
  simp [PortRecord.track, hg, he]

/-- A frame with a bad check at a tracking port is a check error of its error window (R7). -/
theorem PortRecord.tick_bad {p : PortRecord} (threshold : Nat) {f : Frame} (hs : p.state = .locked ∨ p.state = .degraded)
    (hg : f.good = false) : p.tick threshold (some f) =
      ({ p with silent := 0, expected := p.expected.map nextSeq }.checkError threshold).window threshold := by
  rw [tick_tracking threshold f hs]
  simp [PortRecord.track, hg]

/-- A check error that reaches the threshold degrades the port, whether or not it ends the error window (R7). -/
theorem PortRecord.window_of_checkError {p : PortRecord} {threshold : Nat} (h : threshold ≤ p.windowErrors + 1) :
    ((p.checkError threshold).window threshold).state = .degraded ∧
      ((p.checkError threshold).window threshold).totalErrors = min 65535 (p.totalErrors + 1) := by
  have degraded : p.checkError threshold = { p with
      windowErrors := p.windowErrors + 1, totalErrors := min 65535 (p.totalErrors + 1), state := .degraded } := by
    simp [PortRecord.checkError, h]
  rw [degraded]
  unfold PortRecord.window
  dsimp only
  split
  · exact ⟨rfl, rfl⟩
  · simp [PortRecord.settleWindow, Nat.not_lt.2 h]

/-- The end of an error window clears its counts and settles the state by its errors (R7). -/
theorem PortRecord.window_end {p : PortRecord} (threshold : Nat) (hs : p.state = .locked ∨ p.state = .degraded)
    (hw : p.windowPos = 4799) :
    (p.window threshold).windowPos = 0 ∧ (p.window threshold).windowErrors = 0 ∧
      (p.window threshold).state = if p.windowErrors < threshold then .locked else .degraded := by
  rcases hs with hs | hs <;> by_cases he : p.windowErrors < threshold <;>
    simp [PortRecord.window, PortRecord.settleWindow, hs, hw, he]

/-- A frame time inside the error window of a LOCKED port counts in the window and in the locked run (R7, R8). -/
theorem PortRecord.window_inside {p : PortRecord} (threshold : Nat) (hs : p.state = .locked) (hw : p.windowPos < 4799) :
    p.window threshold = { p with lockedRun := min 480000 (p.lockedRun + 1), windowPos := p.windowPos + 1 } := by
  have inside : p.windowPos + 1 < 4800 := by omega
  simp [PortRecord.window, hs, inside]

/-- The 8th silent frame time brings NO_SIGNAL, a lock loss when the port was tracking (R5). -/
theorem PortRecord.silentTick_eighth {p : PortRecord} (threshold : Nat) (h : 7 ≤ p.silent) (hs : p.state ≠ .noSignal) :
    p.silentTick threshold = { p with
      silent := 8, state := .noSignal, expected := none
      lockLosses := if p.state = .acquiring then p.lockLosses else min 255 (p.lockLosses + 1) } := by
  have eight : min 8 (p.silent + 1) = 8 := by omega
  cases e : p.state with
  | noSignal => exact absurd e hs
  | acquiring | locked | degraded => simp [PortRecord.silentTick, PortRecord.tracking, PortRecord.loseLock, eight, e]

/-! ## The use of a port (R12) -/

/-- R12 leaves everything of a port but its use. -/
theorem PortRecord.applyUse_eq (p : PortRecord) (hold : Nat) :
    p.applyUse hold = { p with
      inUse := (p.applyUse hold).inUse, usedSinceReset := (p.applyUse hold).usedSinceReset } := by
  unfold PortRecord.applyUse
  repeat' split
  all_goals rfl

@[simp] theorem PortRecord.applyUse_state (p : PortRecord) (hold : Nat) : (p.applyUse hold).state = p.state := by
  rw [applyUse_eq]

@[simp] theorem PortRecord.applyUse_expected (p : PortRecord) (hold : Nat) : (p.applyUse hold).expected = p.expected := by
  rw [applyUse_eq]

@[simp] theorem PortRecord.applyUse_run (p : PortRecord) (hold : Nat) : (p.applyUse hold).run = p.run := by
  rw [applyUse_eq]

@[simp] theorem PortRecord.applyUse_windowPos (p : PortRecord) (hold : Nat) : (p.applyUse hold).windowPos = p.windowPos := by
  rw [applyUse_eq]

@[simp] theorem PortRecord.applyUse_windowErrors (p : PortRecord) (hold : Nat) : (p.applyUse hold).windowErrors = p.windowErrors := by
  rw [applyUse_eq]

@[simp] theorem PortRecord.applyUse_totalErrors (p : PortRecord) (hold : Nat) : (p.applyUse hold).totalErrors = p.totalErrors := by
  rw [applyUse_eq]

@[simp] theorem PortRecord.applyUse_lockLosses (p : PortRecord) (hold : Nat) : (p.applyUse hold).lockLosses = p.lockLosses := by
  rw [applyUse_eq]

@[simp] theorem PortRecord.applyUse_lockedRun (p : PortRecord) (hold : Nat) : (p.applyUse hold).lockedRun = p.lockedRun := by
  rw [applyUse_eq]

/-- A port out of use that is qualified comes into use (R12). -/
theorem PortRecord.applyUse_qualified {p : PortRecord} {hold : Nat} (hu : p.inUse = false) (hq : p.qualified hold = true) :
    (p.applyUse hold).inUse = true ∧ (p.applyUse hold).usedSinceReset = true := by
  simp [PortRecord.applyUse, hu, hq]

/-- A port that is not LOCKED is out of use (R12). -/
theorem PortRecord.applyUse_unlocked {p : PortRecord} (hold : Nat) (h : p.state ≠ .locked) :
    (p.applyUse hold).inUse = false := by
  cases e : p.inUse <;> simp [PortRecord.applyUse, PortRecord.qualified, e, h]

/-- Settles O55: by the run count that the frame leaves, which is at most 16. -/
theorem acquiringUpdatesTheRun : Obligations.AcquiringUpdatesTheRun := by
  intro p threshold f hs hr q run
  have marked : f.markDamaged.damaged = true ∧ f.markDamaged.good = true := by
    simp [Frame.markDamaged, Frame.seal, Frame.damaged, Frame.good, Frame.body]
  have hrun : { p with silent := 0 }.runAfter f = run := rfl
  have hq : q = if 16 ≤ run then ({ p with silent := 0, run := 16, expected := p.expectedAfter f } : PortRecord).lock
      else { p with silent := 0, run := run, expected := p.expectedAfter f } :=
    (PortRecord.tick_acquiring threshold f hs).trans (PortRecord.acquire_eq _ f)
  have hle : run ≤ 16 := by
    simp only [run]
    split_ifs <;> omega
  by_cases h16 : run = 16
  · rw [hq, if_pos h16.ge, h16]
    exact ⟨rfl, rfl, rfl, fun h => absurd h (by decide), fun _ => ⟨rfl, rfl, rfl, rfl⟩, marked⟩
  · rw [hq, if_neg (by omega)]
    exact ⟨rfl, rfl, rfl, fun _ => hs, fun h => absurd h h16, marked⟩

/-! ## A frame time of the receivers (R12, R13) -/

theorem Node.ring_of_fixed {m n : Node} (h : m.fixed = n.fixed) : m.ring = n.ring := congrArg Fixed.ring h

/-- A change of wrap state writes the wrap state and, on entering ISOLATED, empties the last-good and relay stores (R13). -/
theorem Node.changeWrap_ring (n : Node) (w : WrapState) : (n.changeWrap w).ring =
    if w ≠ n.ring.wrap ∧ w = .isolated then
      { n.ring with wrap := w, lastGood := List.replicate 64 0, relay := { run := none, complete := none } }
    else { n.ring with wrap := w } := by
  unfold Node.changeWrap
  dsimp only
  by_cases hw : w = n.ring.wrap
  · subst hw
    simp
  · rw [if_neg hw, Node.ring_of_fixed ((Node.generalNotice_fixed _ _ _).trans (Node.failAllClaims_fixed _))]
    by_cases hi : w = .isolated
    · rw [if_pos hi, if_pos ⟨hw, hi⟩]
      rfl
    · rw [if_neg hi, if_neg fun h => hi h.2]

/-- A receiver's record after its frame time, or as it stood when the frame time is another's. -/
def PortRecord.after (p : PortRecord) (threshold : Nat) : Option Rx → PortRecord
  | some rx => p.tick threshold (Frame.ofBytes rx)
  | none => p


/-- The master's west transmitter mode is all that R18 writes at the east receiver. -/
theorem Node.turnMode_ring (n : Node) (f : Frame) :
    (n.turnMode f).ring = { n.ring with turnRepeat := (n.turnMode f).ring.turnRepeat } := by
  unfold Node.turnMode
  split <;> rfl

theorem Node.portTickIf_west (n : Node) (rx : Option Rx) : ∃ a, (n.portTickIf .west rx).ring = { n.ring with
    west := n.ring.west.after n.ring.threshold rx, westIn := a } := by
  cases rx with
  | none => exact ⟨_, rfl⟩
  | some rx => exact ⟨_, rfl⟩

theorem Node.portTickIf_east (n : Node) (rx : Option Rx) : ∃ a t, (n.portTickIf .east rx).ring = { n.ring with
    east := n.ring.east.after n.ring.threshold rx, eastIn := a, turnRepeat := t } := by
  cases rx with
  | none => exact ⟨_, _, rfl⟩
  | some rx =>
    refine ⟨Arrival.ofFrame (Frame.ofBytes rx), (n.portTickIf .east (some rx)).ring.turnRepeat, ?_⟩
    dsimp only [Node.portTickIf, Node.portTick, PortRecord.after]
    split
    · rw [Node.turnMode_ring]
    · rfl

/-- A frame time of the receivers moves each receiver's record, applies R12 to both and sets the wrap state (R5-R8, R12, R13). -/
theorem Node.portFrame_ports (n : Node) (west east : Option Rx) :
    let m := (n.portFrame west east).ring
    m.west = (n.ring.west.after n.ring.threshold west).applyUse n.ring.hold ∧
      m.east = (n.ring.east.after n.ring.threshold east).applyUse n.ring.hold ∧ m.wrap = wrapOf m.west.inUse m.east.inUse := by
  obtain ⟨a, hwest⟩ := n.portTickIf_west west
  obtain ⟨b, t, heast⟩ := (n.portTickIf .west west).portTickIf_east east
  dsimp only [Node.portFrame, Node.applyPorts]
  rw [Node.changeWrap_ring, heast, hwest]
  dsimp only
  split <;> exact ⟨rfl, rfl, rfl⟩


/-- R12 at a frame time, by the use that the statement of R12 gives the port. -/
theorem PortRecord.applyUse_cases (p : PortRecord) (hold : Nat) :
    let used := if p.inUse then decide (p.state = .locked)
      else decide (p.state = .locked ∧ (hold ≤ p.lockedRun ∨ p.usedSinceReset = false))
    p.applyUse hold = { p with inUse := used, usedSinceReset := p.usedSinceReset || (!p.inUse && used) } := by
  cases hu : p.inUse with
  | true => simp [PortRecord.applyUse, hu]
  | false =>
    by_cases hq : p.state = .locked ∧ (hold ≤ p.lockedRun ∨ p.usedSinceReset = false)
    · simp [PortRecord.applyUse, PortRecord.qualified, hu, hq]
    · have hq' : p.qualified hold = false := by simpa [PortRecord.qualified] using hq
      simp [PortRecord.applyUse, hu, hq', hq]
      rw [← hu]

/-- Settles O35: the record of each receiver, and the wrap state that the ports in use give. -/
theorem portFrameTimeMovesThePorts : Obligations.PortFrameTimeMovesThePorts := by
  intro west east s n moved used after
  have hmoved (p : PortRecord) (rx : Option Rx) : moved p rx = p.after n.ring.threshold rx := by cases rx <;> rfl
  have hafter (p : PortRecord) : after p = p.applyUse n.ring.hold := (p.applyUse_cases n.ring.hold).symm
  obtain ⟨hwest, heast, hwrap⟩ := n.portFrame_ports west east
  refine ⟨n.portFrame west east, rfl, ?_, ?_, ?_⟩
  · rw [hwest, hafter, hmoved]
  · rw [heast, hafter, hmoved]
  · rw [hwrap]
    cases (n.portFrame west east).ring.west.inUse <;> cases (n.portFrame west east).ring.east.inUse <;> rfl

/-- One receiver's frame time moves its record and applies R12 to it. -/
theorem Node.onePort_port (n : Node) (p : Port) (rx : Rx) :
    (n.onePort p rx).port p = (n.portAfter p rx).applyUse n.ring.hold := by
  cases p with
  | west => exact (n.portFrame_ports (some rx) none).1
  | east => exact (n.portFrame_ports none (some rx)).2.1

/-- The row of a port event, when its event is due. -/
theorem onNode_due {s : State} {due : Node → Bool} {work : Node → Node} (h : due s.node = true) :
    onNode (fun n => if due n then work n else n) s = .next { s with node := work s.node } := by
  rw [onNode, if_pos h]

theorem exec_portSilentTimeout {s : State} {p : Port} (h : s.node.bringsSilence p = true) :
    exec (.portSilentTimeout p) s = .next { s with node := s.node.onePort p [] } :=
  onNode_due (due := fun n => n.bringsSilence p) (work := fun n => n.onePort p []) h

theorem exec_portLock {s : State} {p : Port} {rx : Rx} (h : s.node.bringsLock p rx = true) :
    exec (.portLock p rx) s = .next { s with node := s.node.onePort p rx } :=
  onNode_due (due := fun n => n.bringsLock p rx) (work := fun n => n.onePort p rx) h

theorem exec_portDegrade {s : State} {p : Port} {rx : Rx} (h : s.node.bringsDegrade p rx = true) :
    exec (.portDegrade p rx) s = .next { s with node := s.node.onePort p rx } :=
  onNode_due (due := fun n => n.bringsDegrade p rx) (work := fun n => n.onePort p rx) h

theorem exec_errorWindowEnd {s : State} {p : Port} {rx : Rx} (h : s.node.bringsWindowEnd p rx = true) :
    exec (.errorWindowEnd p rx) s = .next { s with node := s.node.onePort p rx } :=
  onNode_due (due := fun n => n.bringsWindowEnd p rx) (work := fun n => n.onePort p rx) h

theorem exec_portQualified {s : State} {p : Port} {rx : Rx} (h : s.node.bringsUse p rx = true) :
    exec (.portQualified p rx) s = .next { s with node := s.node.onePort p rx } :=
  onNode_due (due := fun n => n.bringsUse p rx) (work := fun n => n.onePort p rx) h

/-- Settles O36: each event row is due by its conditions, and the record it leaves is the frame time's with R12 applied. -/
theorem portEventsChangeThePort : Obligations.PortEventsChangeThePort := by
  intro p rx f s hf n r inOrder brings
  have hsilent : n.portAfter p [] = r.silentTick n.ring.threshold := rfl
  have hframe : n.portAfter p rx = r.tick n.ring.threshold (some f) := by rw [Node.portAfter, hf]
  refine ⟨fun h7 hs => ?_, fun hs ⟨hg, he⟩ hr => ?_, fun hs hg ht => ?_, fun hs ⟨hg, he⟩ hw => ?_, fun hs ⟨hg, he⟩ hw hu hq => ?_⟩
  · have eighth := PortRecord.silentTick_eighth n.ring.threshold h7 hs
    refine ⟨n.onePort p [], exec_portSilentTimeout ?_, ?_⟩
    · simp only [Node.bringsSilence, Bool.and_eq_true, decide_eq_true_eq]
      exact ⟨hs, by rw [hsilent, eighth]⟩
    · rw [Node.onePort_port, hsilent, eighth]
      exact ⟨by simp, by simp, PortRecord.applyUse_unlocked _ (by simp), by simp⟩
  · have locked : n.portAfter p rx =
        ({ r with silent := 0, run := 16, expected := r.expectedAfter f } : PortRecord).lock := by
      have h16 : ({ r with silent := 0 } : PortRecord).runAfter f = 16 := by simp [PortRecord.runAfter, hg, he, hr]
      rw [hframe, PortRecord.tick_acquiring _ f hs, PortRecord.acquire_eq, h16]
      rfl
    refine ⟨n.onePort p rx, exec_portLock ?_, ?_⟩
    · simp only [Node.bringsLock, Bool.and_eq_true, decide_eq_true_eq]
      exact ⟨hs, by rw [locked]; rfl⟩
    · rw [Node.onePort_port, locked]
      simp [PortRecord.lock]
  · have tracked : n.portAfter p rx = _ :=
      hframe.trans (PortRecord.tick_bad _ (.inl hs) hg)
    obtain ⟨hstate, herrors⟩ := PortRecord.window_of_checkError
      (p := { r with silent := 0, expected := r.expected.map nextSeq }) ht
    refine ⟨n.onePort p rx, exec_portDegrade ?_, ?_⟩
    · simp only [Node.bringsDegrade, hf]
      simpa [hg] using ⟨hs, ht⟩
    · rw [Node.onePort_port, tracked]
      exact ⟨by rw [PortRecord.applyUse_state, hstate], by rw [PortRecord.applyUse_totalErrors, herrors],
        PortRecord.applyUse_unlocked _ (by rw [hstate]; decide)⟩
  · have tracked : n.portAfter p rx = _ :=
      hframe.trans (PortRecord.tick_inOrder _ hs hg he)
    obtain ⟨hpos, herrors, hstate⟩ := PortRecord.window_end
      (p := { r with silent := 0, expected := r.expected.map nextSeq }) n.ring.threshold hs hw
    refine ⟨n.onePort p rx, exec_errorWindowEnd ?_, ?_⟩
    · simp only [Node.bringsWindowEnd, PortRecord.tracking, Bool.and_eq_true, Bool.or_eq_true, decide_eq_true_eq]
      refine ⟨⟨hs, hw⟩, ?_⟩
      rw [tracked, hstate]
      split <;> simp
    · rw [Node.onePort_port, tracked]
      exact ⟨by rw [PortRecord.applyUse_windowPos, hpos], by rw [PortRecord.applyUse_windowErrors, herrors],
        by rw [PortRecord.applyUse_state, hstate]⟩
  · have tracked : n.portAfter p rx = { r with
        silent := 0, expected := r.expected.map nextSeq, lockedRun := min 480000 (r.lockedRun + 1), windowPos := r.windowPos + 1 } :=
      hframe.trans ((PortRecord.tick_inOrder _ (.inl hs) hg he).trans (PortRecord.window_inside _ hs hw))
    have qualified : (n.portAfter p rx).qualified n.ring.hold = true := by
      rw [tracked]
      simp only [PortRecord.qualified, Bool.and_eq_true, Bool.or_eq_true, decide_eq_true_eq, Bool.not_eq_true']
      exact ⟨hs, hq.symm.imp_left fun ⟨hrun, hmax⟩ => by omega⟩
    refine ⟨n.onePort p rx, exec_portQualified ?_, ?_⟩
    · simp only [Node.bringsUse, Bool.and_eq_true, Bool.not_eq_true']
      exact ⟨hu, qualified⟩
    · rw [Node.onePort_port]
      exact PortRecord.applyUse_qualified (by rw [tracked]; exact hu) qualified

end Sys2Proof.Machine
end

section
/-! PROOF. What the work on a frame leaves alone of the Ring Interface: the operations on slots, runs, calls and windows leave all
of it, and so does what an alarm word brings. One lemma for each operation, in the order of the model's files. -/

namespace Sys2Proof.Machine

/-! ## The Ring Interface behind the operations of other blocks -/

/-- A fold of an operation that leaves the Ring Interface alone leaves it alone. -/
theorem foldl_ring {α : Type} (f : Node → α → Node) (h : ∀ n a, (f n a).ring = n.ring) (l : List α) (n : Node) :
    (l.foldl f n).ring = n.ring := by
  induction l generalizing n with
  | nil => rfl
  | cons a l ih => rw [List.foldl_cons, ih, h]

@[simp] theorem Node.generalNotice_ring (n : Node) (kind : Nat) (payload : List Byte) :
    (n.generalNotice kind payload).ring = n.ring := Node.ring_of_fixed (Node.generalNotice_fixed _ _ _)

@[simp] theorem Node.tell_ring (n : Node) (u : User) (o : ClaimOutcome) : (n.tell u o).ring = n.ring :=
  Node.ring_of_fixed (Node.tell_fixed _ _ _)

/-! ## Alarm events (R100, R104, R121, R168) -/

@[simp] theorem Node.changeEvent_ring (n : Node) (e : ChangeEntry) : (n.changeEvent e).ring = n.ring := by
  unfold Node.changeEvent
  exact Node.generalNotice_ring _ _ _

@[simp] theorem Node.recomputeAlarm_ring (n : Node) : n.recomputeAlarm.ring = n.ring :=
  Node.ring_of_fixed n.recomputeAlarm_fixed

@[simp] theorem Node.reloadContact_ring (n : Node) (x : Contact × Nat) : (n.reloadContact x).ring = n.ring := by
  unfold Node.reloadContact
  dsimp only
  split
  · rw [Node.changeEvent_ring, Node.modContact_ring]
  · rfl

@[simp] theorem Node.classChange_ring (n : Node) (changed : List Nat) : (n.classChange changed).ring = n.ring :=
  Node.ring_of_fixed (Node.classChange_fixed _ _)

@[simp] theorem Node.finishOp_ring (n : Node) (op : FlashOp) (status : Status) (results : List Byte) :
    (n.finishOp op status results).ring = n.ring := rfl

@[simp] theorem Node.deliverSector_ring (n : Node) (sector : SignalSector) : (n.deliverSector sector).ring = n.ring := by
  unfold Node.deliverSector
  dsimp only
  rw [Node.recomputeAlarm_ring]
  refine (foldl_ring _ Node.reloadContact_ring _ _).trans ?_
  exact Node.classChange_ring (n.setHighClasses sector.classes) _

@[simp] theorem Node.reloadAtHead_ring (n : Node) (op : FlashOp) : (n.reloadAtHead op).ring = n.ring := by
  unfold Node.reloadAtHead
  split
  · exact n.finishOp_ring _ _ _
  · split
    · rw [Node.finishOp_ring, Node.deliverSector_ring]
    · exact n.finishOp_ring _ _ _

@[simp] theorem Node.considerHeads_ring (fuel : Nat) (n : Node) : (Node.considerHeads fuel n).ring = n.ring := by
  induction fuel generalizing n with
  | zero => rfl
  | succ fuel ih =>
    unfold Node.considerHeads
    repeat' split
    all_goals simp only [ih, Node.finishOp_ring, Node.startHead, Node.setOps_ring, Node.reloadAtHead_ring]

@[simp] theorem Node.alarmEvent_ring (n : Node) : n.alarmEvent.ring = n.ring := by
  rw [Node.alarmEvent, Node.considerHead, Node.considerHeads_ring, Node.recomputeAlarm_ring]

@[simp] theorem Node.readWord_ring (n : Node) (w : AlarmWord) : (n.readWord w).ring = n.ring := by
  unfold Node.readWord
  repeat' split
  · rfl
  · rfl
  · rw [Node.changeAndRecompute, Node.alarmEvent_ring, Node.changeEvent_ring]
  · rfl

/-! ## The local slot table at a frame (R32-R36) -/

@[simp] theorem SlotWork.writeOwned_node (w : SlotWork) (k : Nat) (f : SlotField) : (w.writeOwned k f).node = w.node := by
  unfold SlotWork.writeOwned
  split <;> rfl

@[simp] theorem Node.slotLost_fixed (n : Node) (k : Nat) (c : Claim) : (n.slotLost k c).fixed = n.fixed := by
  unfold Node.slotLost
  dsimp only
  split <;> simp

@[simp] theorem SlotWork.claiming_fixed (w : SlotWork) (k : Nat) (f : SlotField) (c : Claim) :
    (w.claiming k f c).node.fixed = w.node.fixed := by
  unfold SlotWork.claiming
  repeat' split
  all_goals simp [SlotWork.write]

@[simp] theorem SlotWork.held_fixed (w : SlotWork) (k : Nat) (f : SlotField) (c : Claim) :
    (w.held k f c).node.fixed = w.node.fixed := by
  unfold SlotWork.held
  repeat' split
  all_goals simp

@[simp] theorem SlotWork.owing_fixed (w : SlotWork) (k : Nat) (f : SlotField) : (w.owing k f).node.fixed = w.node.fixed := by
  unfold SlotWork.owing
  repeat' split
  all_goals simp [SlotWork.write, Node.clearOwed]

@[simp] theorem SlotWork.entryStep_fixed (h : Headers) (w : SlotWork) (k : Nat) :
    (w.entryStep h k).node.fixed = w.node.fixed := by
  unfold SlotWork.entryStep
  dsimp only
  repeat' split
  all_goals simp

@[simp] theorem SlotWork.search_fixed (h : Headers) (w : SlotWork) (c : Claim) : (w.search h c).node.fixed = w.node.fixed := by
  unfold SlotWork.search
  split
  · rfl
  · simp [SlotWork.write]

/-- A fold of steps on a frame's slots that leave the fields alone leaves them alone. -/
theorem foldl_slotWork_fixed {α : Type} (f : SlotWork → α → SlotWork) (h : ∀ w a, (f w a).node.fixed = w.node.fixed)
    (l : List α) (w : SlotWork) : (l.foldl f w).node.fixed = w.node.fixed := by
  induction l generalizing w with
  | nil => rfl
  | cons a l ih => rw [List.foldl_cons, ih, h]

@[simp] theorem Node.slotFrame_fixed (n : Node) (h : Headers) : (n.slotFrame h).node.fixed = n.fixed :=
  (foldl_slotWork_fixed _ (SlotWork.search_fixed h) _ _).trans (foldl_slotWork_fixed _ (SlotWork.entryStep_fixed h) _ _)

/-! ## The master slot register, AUTO_END runs and path counts (R27, R29, R56, R138) -/

@[simp] theorem Node.orphanStep_fixed (n : Node) (k : Nat) (fresh : Bool) : (n.orphanStep k fresh).fixed = n.fixed := by
  unfold Node.orphanStep
  dsimp only
  repeat' split
  all_goals simp

@[simp] theorem Node.registerStep_fixed (h : Headers) (n : Node) (k : Nat) : (Node.registerStep h n k).fixed = n.fixed := by
  unfold Node.registerStep
  dsimp only
  repeat' split
  all_goals simp

@[simp] theorem Node.registerFrame_fixed (n : Node) (h : Headers) : (n.registerFrame h).fixed = n.fixed :=
  foldl_fixed _ (Node.registerStep_fixed h) _ _

@[simp] theorem Node.freeRunStep_fixed (h : Headers) (n : Node) (id : Nat) : (Node.freeRunStep h n id).fixed = n.fixed := by
  unfold Node.freeRunStep
  dsimp only
  repeat' split
  all_goals simp [Node.autoEndNow]

@[simp] theorem Node.freeRuns_fixed (n : Node) (h : Headers) : (n.freeRuns h).fixed = n.fixed :=
  foldl_fixed _ (Node.freeRunStep_fixed h) _ _

@[simp] theorem Node.pathStep_fixed (h : Headers) (n : Node) (r : Nat) : (Node.pathStep h n r).fixed = n.fixed := by
  unfold Node.pathStep
  dsimp only
  repeat' split
  all_goals simp

@[simp] theorem Node.pathCounts_fixed (n : Node) (h : Headers) : (n.pathCounts h).fixed = n.fixed :=
  foldl_fixed _ (Node.pathStep_fixed h) _ _

/-! ## Windows (R140, R179-R184) -/

@[simp] theorem Node.deliveryOutcome_fixed (n : Node) (p : Packet) (d : Delivery) : (n.deliveryOutcome p d).fixed = n.fixed := by
  unfold Node.deliveryOutcome
  dsimp only
  repeat' split
  all_goals simp

@[simp] theorem Node.deliveryOutcome_ring (n : Node) (p : Packet) (d : Delivery) : (n.deliveryOutcome p d).ring = n.ring :=
  Node.ring_of_fixed (Node.deliveryOutcome_fixed _ _ _)

@[simp] theorem Node.receive_ring (n : Node) (whole : Bool) (all lane : List Byte) : (n.receive whole all lane).node.ring = n.ring := by
  unfold Node.receive
  dsimp only
  repeat' split
  all_goals rfl

@[simp] theorem Node.laneEnd_ring (n : Node) (f : Follow) (lane : List Byte) : (n.laneEnd f lane).node.ring = n.ring := by
  unfold Node.laneEnd
  dsimp only
  split
  case h_1 | h_3 => rfl
  case h_2 => exact Node.receive_ring _ _ _ _
  case h_4 =>
    split
    · exact Node.deliveryOutcome_ring (n.setFollow none) _ _
    · rfl
  case h_5 => split <;> rfl

@[simp] theorem Node.laneFrame_ring (n : Node) (seq : Nat) (lane : List Byte) : (n.laneFrame seq lane).node.ring = n.ring := by
  have due (f : Follow) : (n.laneDue f lane).node.ring = n.ring := by
    unfold Node.laneDue
    split
    · rfl
    · exact n.laneEnd_ring f lane
  unfold Node.laneFrame
  repeat' split
  · exact due _
  all_goals rfl

/-! ## Lost claims at a change of role (R38) -/

@[simp] theorem Node.loseHeld_fixed (n : Node) (k : Nat) : (n.loseHeld k).fixed = n.fixed := by
  unfold Node.loseHeld
  split <;> simp

@[simp] theorem Node.loseAllHeld_fixed (n : Node) : n.loseAllHeld.fixed = n.fixed := foldl_fixed _ Node.loseHeld_fixed _ _

@[simp] theorem Node.decidePending_fixed (n : Node) (c : Claim) : (n.decidePending c).fixed = n.fixed := by
  unfold Node.decidePending
  split <;> simp

end Sys2Proof.Machine
end

section
/-! PROOF. The frame waiting at the primary input (O37) and the two changes of the master role (O38). -/

namespace Sys2Proof.Machine

/-! ## The frame taken (R9, R10, R18, R20) -/

@[simp] theorem Ring.arrival_setArrival (r : Ring) (p : Port) (a : Arrival) : (r.setArrival p a).arrival p = a := by
  cases p <;> rfl

@[simp] theorem Ring.setArrival_lastGood (r : Ring) (p : Port) (a : Arrival) : (r.setArrival p a).lastGood = r.lastGood := by
  cases p <;> rfl

@[simp] theorem Ring.setArrival_quiet (r : Ring) (p : Port) (a : Arrival) : (r.setArrival p a).quiet = r.quiet := by
  cases p <;> rfl

@[simp] theorem Ring.setArrival_role (r : Ring) (p : Port) (a : Arrival) : (r.setArrival p a).role = r.role := by
  cases p <;> rfl

/-- What the Ring Interface holds of a port's frame time and of the last good frame. -/
def Ring.heard (r : Ring) (p : Port) : Arrival × List Sample := (r.arrival p, r.lastGood)

/-- PROCESS_FRAME takes the waiting frame. -/
theorem exec_processFrame {s : State} {p : Port} {f : Frame} (h : s.node.waitingFrame = some (p, f)) :
    exec .processFrame s = .next { s with node := s.node.takeFrame p f } := by
  have : s.node.processWaiting = s.node.takeFrame p f := by rw [Node.processWaiting, h]
  rw [← this]
  rfl

/-- RETURNED_FRAME takes the waiting frame at a master that finds its own address in it. -/
theorem exec_returnedFrame {s : State} {p : Port} {f : Frame} (h : s.node.waitingFrame = some (p, f))
    (hm : s.node.isMaster = true) (ha : f.master.toNat = s.node.mgmt.address) :
    exec .returnedFrame s = .next { s with node := s.node.takeFrame p f } := by
  have : s.node.returnedWaiting = s.node.takeFrame p f := by
    rw [Node.returnedWaiting, h]
    simp [hm, ha, Node.address]
  rw [← this]
  rfl

/-- A node that is not a master holds a frame time exactly at a damaged or bad frame (R10). -/
theorem Node.holdsTime_slave {n : Node} (h : n.ring.role = false) (f : Frame) : n.holdsTime f = !(f.good && !f.damaged) := by
  simp [Node.holdsTime, Node.isMaster, h, Frame.undamaged]

/-- A frame with the node's own address holds its frame time exactly when it is damaged or bad (R10, R18). -/
theorem Node.holdsTime_own {n : Node} {f : Frame} (h : f.master.toNat = n.mgmt.address) :
    n.holdsTime f = !(f.good && !f.damaged) := by
  simp [Node.holdsTime, Node.address, h, Frame.undamaged]

/-- A foreign frame: an undamaged one of another master, at a node with the FMSTR strap (R20). -/
theorem Node.isForeign_iff (n : Node) (f : Frame) : n.isForeign f = true ↔
    n.mgmt.fmstr = true ∧ f.good = true ∧ f.damaged = false ∧ f.master ≠ 0 ∧ f.master.toNat ≠ n.mgmt.address := by
  simp only [Node.isForeign, Frame.undamaged, Bool.and_eq_true, Bool.not_eq_true', decide_eq_true_eq, and_assoc]
  rfl

/-- A frame with the node's own address is not foreign (R20). -/
theorem Node.isForeign_own {n : Node} {f : Frame} (h : f.master.toNat = n.mgmt.address) : n.isForeign f = false := by
  simp [← Bool.not_eq_true, Node.isForeign_iff, h]

/-! ## The frame at a slave -/

@[simp] theorem Node.sendProcessed_heard (n : Node) (p q : Port) (f : Option Frame) :
    (n.sendProcessed p f).ring.heard q = n.ring.heard q := by
  unfold Node.sendProcessed
  dsimp only
  split <;> cases q <;> rfl

@[simp] theorem Node.relayFeed_heard (n : Node) (seq : Nat) (lane : List Byte) (emptied : Bool) (q : Port) :
    (n.relayFeed seq lane emptied).ring.heard q = n.ring.heard q := by
  unfold Node.relayFeed
  dsimp only
  split <;> cases q <;> rfl

/-- The heard part after an undamaged frame's samples are stored (R11). -/
theorem Node.storeSamples_heard (n : Node) (h : Headers) (q : Port) :
    (n.storeSamples h).ring.heard q = (n.ring.arrival q, h.map (·.sample)) := by
  cases q <;> rfl

theorem Node.restarting_of_kept {m n : Node} (h : m.kept = n.kept) : m.mgmt.restart.isSome = n.mgmt.restart.isSome :=
  congrArg Kept.restarting h

/-- A frame that a relaying node sends on leaves the samples of an undamaged frame in the last-good store (R2, R11). -/
theorem Node.relayFrame_heard {n : Node} (p q : Port) (f : Frame) (h : n.mgmt.restart = none) :
    (n.relayFrame p f).ring.heard q =
      (n.ring.arrival q, if f.good && !f.damaged then f.slots.map (·.sample) else n.ring.lastGood) := by
  unfold Node.relayFrame
  by_cases hu : f.undamaged = true
  · have hg : (f.good && !f.damaged) = true := hu
    rw [if_pos hu, if_pos hg]
    unfold Node.slaveFrame
    dsimp only
    have hword := Node.readWord_kept (n.storeSamples f.slots) f.word
    split
    · rw [if_neg]
      · rw [Node.sendProcessed_heard, Node.laneFrame_ring, Node.ring_of_fixed (Node.pathCounts_fixed _ _),
          Node.ring_of_fixed (Node.freeRuns_fixed _ _), Node.ring_of_fixed (Node.slotFrame_fixed _ _), Node.readWord_ring,
          Node.storeSamples_heard]
      · rw [Node.laneFrame_restarts]
        · decide
        · rw [Node.restarting_of_kept (Node.pathCounts_kept _ _), Node.restarting_of_kept (Node.freeRuns_kept _ _),
            Node.restarting_of_kept (Node.slotFrame_kept _ _), Node.restarting_of_kept hword]
          show n.mgmt.restart.isSome = false
          rw [h]
          rfl
    · rw [Node.sendProcessed_heard, Node.ring_of_fixed (Node.pathCounts_fixed _ _),
          Node.ring_of_fixed (Node.freeRuns_fixed _ _), Node.readWord_ring, Node.storeSamples_heard]
  · have hg : ¬(f.good && !f.damaged) = true := hu
    rw [if_neg hu, if_neg hg, Node.heldFrame, Node.sendProcessed_heard]
    rfl

/-- A returned frame leaves the samples of an undamaged one in the last-good store (R11, R18). -/
theorem Node.returned_heard (n : Node) (f : Frame) (q : Port) : (n.returned f).ring.heard q =
    (n.ring.arrival q, if f.good && !f.damaged then f.slots.map (·.sample) else n.ring.lastGood) := by
  unfold Node.returned
  dsimp only
  by_cases hu : f.undamaged = true
  · have hg : (f.good && !f.damaged) = true := hu
    rw [if_pos hu, if_pos hg, Node.relayFeed_heard, Node.laneFrame_ring, Node.storeSamples_heard, Node.readWord_ring,
      Node.ring_of_fixed (Node.registerFrame_fixed _ _)]
  · have hg : ¬(f.good && !f.damaged) = true := hu
    rw [if_neg hu, if_neg hg, Node.relayFeed_heard]
    rfl

/-! ## The frame taken, by the node that takes it -/

/-- The node once the frame at port `p` counts as taken. -/
def Node.withTaken (n : Node) (p : Port) (held : Bool) : Node := { n with ring := n.ring.setArrival p (.taken held) }

@[simp] theorem Node.withTaken_role (n : Node) (p : Port) (held : Bool) : (n.withTaken p held).ring.role = n.ring.role :=
  Ring.setArrival_role _ _ _

theorem Node.takeFrame_held {n : Node} (p : Port) (f : Frame) (h : n.mgmt.held = true) :
    n.takeFrame p f = (n.withTaken p (n.holdsTime f)).forwardFrame p f := if_pos h

/-- A relaying node that has started takes a frame (R2, R20). -/
theorem Node.takeFrame_slave {n : Node} (p : Port) (f : Frame) (hh : n.mgmt.held = false) (hs : n.mgmt.node ≠ .starting)
    (hr : n.ring.role = false) : n.takeFrame p f =
      (if (n.withTaken p (n.holdsTime f)).isForeign f then (n.withTaken p (n.holdsTime f)).hearForeign
        else n.withTaken p (n.holdsTime f)).relayFrame p f := by
  have hm : (n.withTaken p (n.holdsTime f)).isMaster = false := by simp [Node.withTaken, Node.isMaster, hr]
  unfold Node.takeFrame
  dsimp only
  rw [if_neg (by simp [hh]), if_neg hs]
  exact if_neg (by rw [Node.withTaken] at hm; simp [hm])

/-- A running master takes a frame (R18, R20). -/
theorem Node.takeFrame_master {n : Node} (p : Port) (f : Frame) (hh : n.mgmt.held = false) (hs : n.mgmt.node = .running)
    (hr : n.ring.role = true) : n.takeFrame p f = (n.withTaken p (n.holdsTime f)).masterFrame p f := by
  have hm : (n.withTaken p (n.holdsTime f)).isMaster = true := by simp [Node.withTaken, Node.isMaster, hr, Node.running, hs]
  unfold Node.takeFrame
  dsimp only
  rw [if_neg (by simp [hh]), if_neg (by simp [hs])]
  exact if_pos hm

/-- What a frame taken leaves at its port and in the last-good store (R10, R11): its samples when it is undamaged. -/
def Frame.leaves (f : Frame) (lastGood : List Sample) : Arrival × List Sample :=
  (.taken (!(f.good && !f.damaged)), if f.good && !f.damaged then f.slots.map (·.sample) else lastGood)

/-- At a relaying node that has started. -/
theorem Node.takeFrame_slave_heard {n : Node} (p : Port) (f : Frame) (hh : n.mgmt.held = false) (hs : n.mgmt.node ≠ .starting)
    (hr : n.ring.role = false) (hres : n.mgmt.restart = none) :
    (n.takeFrame p f).ring.heard p = f.leaves n.ring.lastGood := by
  rw [Node.takeFrame_slave p f hh hs hr, Node.holdsTime_slave hr]
  split
  · rw [Node.relayFrame_heard]
    · cases p <;> rfl
    · exact hres
  · rw [Node.relayFrame_heard]
    · cases p <;> rfl
    · exact hres

/-- A running master takes a frame with its own address as a returned one (R18). -/
theorem Node.takeFrame_returned {n : Node} (p : Port) {f : Frame} (hh : n.mgmt.held = false) (hs : n.mgmt.node = .running)
    (hr : n.ring.role = true) (ha : f.master.toNat = n.mgmt.address) :
    n.takeFrame p f = (n.withTaken p (!(f.good && !f.damaged))).returned f := by
  have own : (n.withTaken p (!(f.good && !f.damaged))).isForeign f = false := Node.isForeign_own ha
  rw [Node.takeFrame_master p f hh hs hr, Node.holdsTime_own ha, Node.masterFrame, if_neg (by rw [own]; decide)]
  exact if_pos ha

/-- At a master that finds its own address in the frame. -/
theorem Node.takeFrame_returned_heard {n : Node} (p : Port) {f : Frame} (hh : n.mgmt.held = false) (hs : n.mgmt.node = .running)
    (hr : n.ring.role = true) (ha : f.master.toNat = n.mgmt.address) :
    (n.takeFrame p f).ring.heard p = f.leaves n.ring.lastGood := by
  rw [Node.takeFrame_returned p hh hs hr ha, Node.returned_heard]
  cases p <;> rfl

/-- A running master's own frame, undamaged, goes through its blocks in the order of log 60. -/
theorem Node.returned_undamaged (n : Node) {f : Frame} (hu : f.undamaged = true) :
    let word := (n.registerFrame f.slots).readWord f.word
    let stored := word.storeSamples f.slots
    let lane := stored.laneFrame f.seq.toNat f.lane
    n.returned f = lane.node.relayFeed f.seq.toNat lane.bytes
      (if f.seq.toNat % 8 = 0 then lane.node.emptying else stored.emptying) := if_pos hu

/-- The quiet count that a frame leaves at a relaying node: 0 after a foreign frame (R20). -/
theorem Node.hearForeign_if (n : Node) (f : Frame) :
    (if n.isForeign f then n.hearForeign else n) = { n with ring := { n.ring with
      quiet := if n.mgmt.fmstr = true ∧ f.good = true ∧ f.damaged = false ∧ f.master ≠ 0 ∧ f.master.toNat ≠ n.mgmt.address then 0
        else n.ring.quiet } } := by
  by_cases hf : n.isForeign f = true
  · rw [if_pos hf, if_pos ((n.isForeign_iff f).1 hf)]
    rfl
  · rw [if_neg hf, if_neg fun h => hf ((n.isForeign_iff f).2 h)]

/-- A frame that a relaying node forwards goes out as it is, and moves nothing but the transmitters (R21). -/
theorem Node.forwardFrame_slave {n : Node} (p : Port) (f : Frame) (h : n.ring.role = false) :
    ∃ r : Ring, n.forwardFrame p f = { n with ring := r } ∧ r.txEast.out = some f ∧ r.lastGood = n.ring.lastGood := by
  unfold Node.forwardFrame
  rw [if_neg (by simp [h])]
  dsimp only
  split
  · exact ⟨_, rfl, rfl, rfl⟩
  · exact ⟨_, rfl, rfl, rfl⟩

/-- An undamaged frame at a running slave goes out with what its slots and its lane wrote (R2), unless its lane restarts the
part. -/
theorem Node.slaveFrame_running {n : Node} (p : Port) (f : Frame) :
    let word := (n.storeSamples f.slots).readWord f.word
    let slots := word.slotFrame f.slots
    let lane := ((slots.node.freeRuns f.slots).pathCounts f.slots).laneFrame f.seq.toNat f.lane
    word.mgmt.node = .running → lane.restarts = false → n.slaveFrame p f =
      lane.node.sendProcessed p (some (Frame.seal { f with slots := slots.sent, lane := lane.bytes })) := by
  intro word slots lane hword hres
  have hrun : word.running = true := by simp [Node.running, hword]
  exact (if_pos hrun).trans (if_neg (by rw [hres]; decide))

/-- Settles O37: the frame is taken whole, and then goes through the blocks of a slave or of the master. -/
theorem framesFeedTheLastGoodStore : Obligations.FramesFeedTheLastGoodStore := by
  constructor
  · intro p f s hh hw hs hres n takes
    have taken_of (i : Instr) (hi : exec i s = .next { s with node := n.takeFrame p f })
        (h : (n.takeFrame p f).ring.heard p = f.leaves n.ring.lastGood) : takes i :=
      ⟨n.takeFrame p f, hi, congrArg Prod.fst h, congrArg Prod.snd h⟩
    refine ⟨fun hr => ?_, fun hr hrun ha => ?_⟩
    · exact taken_of _ (exec_processFrame hw) (Node.takeFrame_slave_heard p f hh hs hr hres)
    · have heard := Node.takeFrame_returned_heard p hh hrun hr ha
      have hm : n.isMaster = true := by simp [Node.isMaster, hr, Node.running, hrun]
      exact ⟨taken_of _ (exec_processFrame hw) heard, taken_of _ (exec_returnedFrame hw hm ha) heard⟩
  · intro p f s hw n taken runs
    refine ⟨fun hh hr => ?_, fun hh hrun hr => ?_, fun hh hrun hr ha hg hd => ?_⟩
    · refine ⟨_, exec_processFrame hw, ?_⟩
      rw [Node.takeFrame_held p f hh, Node.holdsTime_slave hr]
      obtain ⟨r, hm, hout, hgood⟩ := Node.forwardFrame_slave (n := n.withTaken p (!(f.good && !f.damaged))) p f (by
        rw [Node.withTaken_role, hr])
      rw [hm]
      exact ⟨rfl, hout, hgood.trans (Ring.setArrival_lastGood _ _ _)⟩
    · have hs : n.mgmt.node ≠ .starting := by rw [hrun]; decide
      intro quiet heard
      have hrelay : n.takeFrame p f = heard.relayFrame p f := by
        rw [Node.takeFrame_slave p f hh hs hr, Node.hearForeign_if, Node.holdsTime_slave hr]
        cases p <;> rfl
      refine ⟨fun hg hd => ?_, fun hu => ?_⟩
      · intro word slots lane hword hres
        have hslave : heard.relayFrame p f = heard.slaveFrame p f := if_pos (by simp [Frame.undamaged, hg, hd])
        refine (exec_processFrame hw).trans ?_
        rw [hrelay, hslave, Node.slaveFrame_running _ _ hword hres]
        rfl
      · have hheld : heard.relayFrame p f = heard.heldFrame p f := if_neg (by simpa [Frame.undamaged] using hu)
        refine (exec_processFrame hw).trans ?_
        rw [hrelay, hheld]
        rfl
    · have hu : f.undamaged = true := by simp [Frame.undamaged, hg, hd]
      have hm : n.isMaster = true := by simp [Node.isMaster, hr, Node.running, hrun]
      intro word stored lane emptied
      have hreturned : n.takeFrame p f = lane.node.relayFeed f.seq.toNat lane.bytes emptied :=
        (Node.takeFrame_returned p hh hrun hr ha).trans (Node.returned_undamaged _ hu)
      exact ⟨hreturned ▸ exec_processFrame hw, hreturned ▸ exec_returnedFrame hw hm ha⟩

/-! ## A node resumes mastering (R20, R38) -/

/-- A resumption writes the role, the west transmitter's mode, the quiet count and what R19 empties, and what it tells the users
of the claims leaves the Ring Interface alone. -/
theorem Node.resume_ring (n : Node) : n.resume.ring = { n.ring with
    role := true, turnRepeat := false, quiet := 48000, relay := { run := none, complete := none }
    genWindow := { bytes := List.replicate 64 0, inserting := false } } := by
  have decided (l : List Claim) (m : Node) : (l.foldl Node.decidePending m).ring = m.ring :=
    foldl_ring _ (fun m c => Node.ring_of_fixed (m.decidePending_fixed c)) l m
  have lost (l : List Claim) (m : Node) : (l.foldl (fun (m : Node) c => m.tell c.user .noSlot) m).ring = m.ring :=
    foldl_ring _ (fun m c => m.tell_ring _ _) l m
  have emptied (m : Node) : m.emptyRegister.relayEmpty.loseAllHeld.ring = { m.ring with
      relay := { run := none, complete := none }, genWindow := { bytes := List.replicate 64 0, inserting := false } } :=
    Node.ring_of_fixed m.emptyRegister.relayEmpty.loseAllHeld_fixed
  rw [Node.resume, decided, lost]
  dsimp only
  rw [emptied]

/-- MASTER_RESUME, when the quiet count is full at its next count (R20). -/
theorem exec_masterResume {s : State} (h : s.node.resumeDue = true) :
    exec .masterResume s = .next { s with node := s.node.resume } :=
  onNode_due (due := Node.resumeDue) h

/-! ## A master hears another (R20, R38, R95) -/

/-- A running master yields to a foreign frame exactly when its master has the lower address (R20). -/
theorem Node.yieldsTo_foreign {n : Node} {f : Frame} (hm : n.isMaster = true) (hf : n.isForeign f = true) :
    n.yieldsTo f = decide (f.master.toNat < n.mgmt.address) := by
  simp only [Node.yieldsTo, hm, hf, Bool.true_and]
  rfl

/-- A foreign frame at a running master holds its frame time exactly when the master keeps its role (R10, R20). -/
theorem Node.holdsTime_foreign {n : Node} {f : Frame} (hm : n.isMaster = true) (hf : n.isForeign f = true)
    (hu : f.undamaged = true) (hne : f.master.toNat ≠ n.mgmt.address) :
    n.holdsTime f = decide (n.mgmt.address < f.master.toNat) := by
  have hlt : (!decide (f.master.toNat < n.mgmt.address)) = decide (n.mgmt.address < f.master.toNat) := by
    rw [← decide_not]
    exact decide_eq_decide.2 (by omega)
  simp [Node.holdsTime, Node.address, hu, hm, hne, Node.yieldsTo_foreign hm hf, ← hlt]

/-- The register emptied holds a free entry for each slot (R26). -/
theorem Node.emptyRegister_eq {n : Node} (h : n.slots.register.length = 64) :
    n.emptyRegister = { n with slots := { n.slots with register := List.replicate 64 .reset } } := by
  rw [Node.emptyRegister, List.map_const', h]

@[simp] theorem Node.generalNotice_slots (n : Node) (kind : Nat) (payload : List Byte) :
    (n.generalNotice kind payload).slots = n.slots := by
  unfold Node.generalNotice Node.notice
  repeat' split
  all_goals rfl

/-- Settles O38: a resumption, and a master's two answers to the frame of another. -/
theorem masterResumes : Obligations.MasterResumes := by
  constructor
  · intro s hs hr hrun hq hw n
    have due : n.resumeDue = true := by
      simp only [Node.resumeDue, Node.mayResume, Node.running, Bool.and_eq_true, Bool.not_eq_true', decide_eq_true_eq]
      exact ⟨⟨⟨⟨hs, hr⟩, hrun⟩, Nat.succ_le_succ hq⟩, by rw [hw]; rfl⟩
    exact ⟨n.resume, exec_masterResume due, n.resume_ring⟩
  · intro p f s hinv hw hh hrun hs hr hg hd h0 n taken told
    have hu : f.undamaged = true := by simp [Frame.undamaged, hg, hd]
    have hm : n.isMaster = true := by simp [Node.isMaster, Node.running, n, hr, hrun]
    have foreign (hne : f.master.toNat ≠ n.mgmt.address) : n.isForeign f = true :=
      (n.isForeign_iff f).2 ⟨hs, hg, hd, h0, hne⟩
    have htaken (hne : f.master.toNat ≠ n.mgmt.address) : n.takeFrame p f = taken.masterFrame p f := by
      rw [Node.takeFrame_master p f hh hrun hr, Node.holdsTime_foreign hm (foreign hne) hu hne]
      rfl
    have hm' : taken.isMaster = true := by simpa [taken, Node.isMaster, Node.running] using hm
    have hmaster (hne : f.master.toNat ≠ n.mgmt.address) : taken.masterFrame p f =
        if f.master.toNat < n.mgmt.address then ((taken.dualMaster 0 f).hearForeign.yieldRole).relayFrame p f
        else (taken.dualMaster 1 f).hearForeign.discardFrame f := by
      have hf : taken.isForeign f = true := foreign hne
      rw [Node.masterFrame, if_pos hf, Node.yieldsTo_foreign hm' hf]
      simp only [decide_eq_true_eq, taken]
    have htold (outcome : Nat) : taken.dualMaster outcome f = told (byte outcome) := by
      simp only [Node.dualMaster, Ring.setArrival_quiet, taken, told, Node.address]
    constructor
    · intro hlt m yielded
      have hregister : m.slots.register.length = 64 := by
        have hslots : m.slots = n.slots := by
          simp only [m, told]
          split
          · rw [Node.generalNotice_slots]
          · rfl
        rw [hslots, Node.register_len hinv]
      have hyield : m.hearForeign.yieldRole = yielded.loseAllHeld := by
        dsimp only [Node.yieldRole]
        rw [Node.emptyRegister_eq]
        · rfl
        · exact hregister
      refine (exec_processFrame hw).trans ?_
      rw [htaken (by omega), hmaster (by omega), if_pos hlt, htold 0]
      exact congrArg (fun y : Node => Host.Outcome.next { s with node := y.relayFrame p f }) hyield
    · intro hlt m quiet
      refine (exec_processFrame hw).trans ?_
      rw [htaken (by omega), hmaster (by omega), if_neg (by omega), htold 1]
      rfl

end Sys2Proof.Machine
end

section
/-! PROOF. The end of a call and what supervises it (O49). -/

namespace Sys2Proof.Machine

/-! ## What the end of a call leaves alone (R141) -/

/-- The parts of a node that the end of a call leaves alone: all but slots, layers and bindings, calls and the lane. -/
structure OutsideCalls where
  ring : Ring
  alarm : Alarm
  players : Players
  library : Library
  mgmt : Mgmt
  pins : Pins
  early : List Share
  freeCount : Nat

/-- Those parts of a node. -/
def Node.outsideCalls (n : Node) : OutsideCalls where
  ring := n.ring
  alarm := n.alarm
  players := n.players
  library := n.library
  mgmt := n.mgmt
  pins := n.pins
  early := n.early
  freeCount := n.freeCount

/-- A node with the same parts outside calls differs in the other four alone. -/
theorem Node.eq_of_outsideCalls {m n : Node} (h : m.outsideCalls = n.outsideCalls) :
    m = { n with slots := m.slots, mixer := m.mixer, calls := m.calls, lane := m.lane } := by
  obtain ⟨⟩ := m
  simp only [Node.outsideCalls, OutsideCalls.mk.injEq] at h
  obtain ⟨rfl, rfl, rfl, rfl, rfl, rfl, rfl, rfl⟩ := h
  rfl

@[simp] theorem Node.popZone_outsideCalls (n : Node) (z id : Nat) : (n.popZone z id).outsideCalls = n.outsideCalls := by
  unfold Node.popZone
  split <;> rfl

@[simp] theorem Node.popAll_outsideCalls (n : Node) (id : Nat) : (n.popAll id).outsideCalls = n.outsideCalls := by
  unfold Node.popAll
  induction zoneIndices generalizing n with
  | nil => rfl
  | cons z l ih => rw [List.foldl_cons, ih, popZone_outsideCalls]

@[simp] theorem Node.popLayers_outsideCalls (n : Node) (id : Option Nat) (owner : Owner) :
    (n.popLayers id owner).outsideCalls = n.outsideCalls := by
  unfold Node.popLayers
  repeat' split
  · rfl
  · rw [popAll_outsideCalls]
    rfl
  all_goals rfl

@[simp] theorem Node.generalNotice_outsideCalls (n : Node) (kind : Nat) (payload : List Byte) :
    (n.generalNotice kind payload).outsideCalls = n.outsideCalls := by
  unfold Node.generalNotice Node.notice
  repeat' split
  all_goals rfl

@[simp] theorem Node.closingPacket_outsideCalls (n : Node) (r : Nat) (why : Reason) (side : Side) :
    (n.closingPacket r why side).outsideCalls = n.outsideCalls := by
  unfold Node.closingPacket
  dsimp only
  repeat' split
  all_goals rfl

@[simp] theorem Node.callEnd_outsideCalls (n : Node) (r : Nat) (why : Reason) (side : Side) :
    (n.callEnd r why side).outsideCalls = n.outsideCalls := by
  have modCall (m : Node) (f : CallRecord → CallRecord) : (m.modCall r f).outsideCalls = m.outsideCalls := rfl
  have release (m : Node) (u : User) : (m.releaseClaim u).outsideCalls = m.outsideCalls := rfl
  unfold Node.callEnd
  dsimp only
  split
  · rfl
  · simp only [Node.callEndedNotice, modCall, release, generalNotice_outsideCalls, popLayers_outsideCalls,
      closingPacket_outsideCalls]

/-! ## The record of a call that ends -/

@[simp] theorem Node.popLayers_calls (n : Node) (id : Option Nat) (owner : Owner) : (n.popLayers id owner).calls = n.calls := by
  have popAll (m : Node) (id : Nat) : (m.popAll id).calls = m.calls := by
    unfold Node.popAll
    induction zoneIndices generalizing m with
    | nil => rfl
    | cons z l ih =>
      rw [List.foldl_cons, ih, Node.popZone]
      split <;> rfl
  unfold Node.popLayers
  repeat' split
  · rfl
  · exact popAll _ _
  all_goals rfl

@[simp] theorem Node.generalNotice_calls (n : Node) (kind : Nat) (payload : List Byte) :
    (n.generalNotice kind payload).calls = n.calls := by
  unfold Node.generalNotice Node.notice
  repeat' split
  all_goals rfl

@[simp] theorem Node.closingPacket_records (n : Node) (r : Nat) (why : Reason) (side : Side) :
    (n.closingPacket r why side).calls.records = n.calls.records := by
  unfold Node.closingPacket
  dsimp only
  repeat' split
  all_goals rfl

/-- The record of a call that ends: its reason and side, and IDLE with its timer, talk slot and bindings given up (R141). -/
theorem Node.callEnd_records {n : Node} {r : Nat} (h : (n.call r).state ≠ .idle) (why : Reason) (side : Side) :
    (n.callEnd r why side).calls.records = n.calls.records.modify r fun c => { c with
      clearReason := some why, clearSide := some side, state := .idle, timer := 0, talk := none, tone := none, listenBinding := none } := by
  unfold Node.callEnd
  dsimp only
  rw [if_neg h]
  simp only [Node.modCall, Node.callEndedNotice, generalNotice_calls, popLayers_calls]
  show (Node.closingPacket _ r why side).calls.records.modify r _ = _
  rw [closingPacket_records]
  dsimp only
  rw [List.modify_modify_eq]
  rfl

/-- A call that ends leaves its record as R141 gives, and the parts outside calls as they were. -/
theorem Node.callEnd_ends {n : Node} {r : Nat} (hr : r < n.calls.records.length) (h : (n.call r).state ≠ .idle) (why : Reason)
    (side : Side) : (n.callEnd r why side).callEnded r why side = true := by
  have hcall : (n.callEnd r why side).call r = { n.call r with
      clearReason := some why, clearSide := some side, state := .idle, timer := 0, talk := none, tone := none
      listenBinding := none } := by
    rw [Node.call, callEnd_records h]
    exact getD_modify_self _ _ _ hr
  simp [Node.callEnded, hcall]

/-! ## The supervision of a listen slot (R138) -/

/-- The records that supervise their listen slot (R138). -/
theorem CallRecord.supervises_iff (c : CallRecord) : c.supervises = true ↔
    (c.role = .caller ∧ (c.state = .alerting ∨ c.state = .connected)) ∨
      (c.role = .callee ∧ (c.state = .claiming ∨ c.state = .ringing ∨ c.state = .connected)) := by
  unfold CallRecord.supervises
  cases c.role <;> simp [or_assoc]

/-- A record that supervises its listen slot is in a call. -/
theorem CallRecord.state_of_supervises {c : CallRecord} (h : c.supervises = true) : c.state ≠ .idle := by
  rcases c.supervises_iff.1 h with ⟨-, h | h⟩ | ⟨-, h | h | h⟩ <;> simp [h]

/-- A header shows the listen slot gone when it is stamped with another owner than the remote (R138). -/
theorem CallRecord.slotGone_iff (c : CallRecord) (f : SlotField) :
    c.slotGone f = true ↔ f.stamped = true ∧ c.remote ≠ some f.ownerOf := by
  simp [CallRecord.slotGone]

/-- A record without a listen slot counts nothing. -/
theorem Node.pathStep_none {n : Node} {r : Nat} (h : (n.call r).listen = none) (hs : Headers) : Node.pathStep hs n r = n := by
  simp [Node.pathStep, h]

/-- A record with a listen slot reads its header, unless it does not supervise, has changed its state or finds it unstamped. -/
theorem Node.pathStep_some {n : Node} {r k : Nat} (h : (n.call r).listen = some k) (hs : Headers) : Node.pathStep hs n r =
    if !(n.call r).supervises ∨ (n.call r).changed ∨ !(headerOf hs k).stamped then n
    else if (n.call r).slotGone (headerOf hs k) then
      if 48 ≤ (n.call r).path + 1 then (n.modCall r fun c => { c with path := c.path + 1 }).callEnd r .pathLost .here
      else n.modCall r fun c => { c with path := c.path + 1 }
    else n.modCall r fun c => { c with path := 0 } := by
  simp [Node.pathStep, h]

/-- An update of a record is what it makes of the record that stands there. -/
theorem Node.modCall_congr {n : Node} {r : Nat} {f g : CallRecord → CallRecord} (h : f (n.call r) = g (n.call r)) :
    n.modCall r f = n.modCall r g := by
  have hmod : n.calls.records.modify r f = n.calls.records.modify r g := by
    refine List.ext_getElem? fun i => ?_
    rw [List.getElem?_modify, List.getElem?_modify]
    by_cases hi : r = i
    · subst hi
      unfold Node.call at h
      rw [List.getD_eq_getElem?_getD] at h
      cases e : n.calls.records[r]? with
      | none => rfl
      | some c => simpa [e] using h
    · simp [hi]
  rw [Node.modCall, Node.modCall, hmod]

/-- A frame time is a held one at a running master when its primary input holds no frame, a damaged or bad one, one that the
master discards, or one that made it so when it was taken (R10, R18, R20). -/
theorem Node.heldTime_master {n : Node} {p : Port} (hr : n.ring.role = true) (hs : n.mgmt.node = .running)
    (hp : n.ring.wrap.primary = some p) : n.heldTime = true ↔ match n.ring.arrival p with
      | .none => True
      | .frame f => ¬(f.good = true ∧ f.damaged = false ∧ (f.master.toNat = n.mgmt.address ∨
          (n.mgmt.fmstr = true ∧ f.master ≠ 0 ∧ f.master.toNat < n.mgmt.address)))
      | .taken held => held = true := by
  have hm : n.isMaster = true := by simp [Node.isMaster, Node.running, hr, hs]
  rw [Node.heldTime_at hp]
  cases n.ring.arrival p with
  | none => simp [Node.arrivalHolds]
  | taken held => exact Iff.rfl
  | frame f =>
    have yields : n.yieldsTo f = true ↔ n.isForeign f = true ∧ f.master.toNat < n.mgmt.address := by
      simp only [Node.yieldsTo, hm, Bool.true_and, Bool.and_eq_true, decide_eq_true_eq]
      rfl
    have undamaged : f.undamaged = true ↔ f.good = true ∧ f.damaged = false := by simp [Frame.undamaged]
    refine (n.holdsTime_iff f).trans (not_congr ?_)
    rw [yields, n.isForeign_iff, undamaged]
    show _ ∧ (_ → f.master.toNat = n.mgmt.address ∨ _) ↔ _
    constructor
    · rintro ⟨⟨hg, hd⟩, h⟩
      refine ⟨hg, hd, (h hm).imp_right ?_⟩
      rintro ⟨⟨hf, -, -, h0, -⟩, hlt⟩
      exact ⟨hf, h0, hlt⟩
    · rintro ⟨hg, hd, h⟩
      refine ⟨⟨hg, hd⟩, fun _ => h.imp_right ?_⟩
      rintro ⟨hf, h0, hlt⟩
      exact ⟨⟨hf, hg, hd, h0, by omega⟩, hlt⟩

/-! ## The events that end a call -/

/-- A call ended on a node that differs from `n` in slots, layers, calls and lane alone. -/
theorem Node.callEnd_from {m n : Node} {r : Nat} (ho : m.outsideCalls = n.outsideCalls) (hr : r < m.calls.records.length)
    (h : (m.call r).state ≠ .idle) (why : Reason) (side : Side) :
    let t := m.callEnd r why side
    t.callEnded r why side = true ∧ t = { n with slots := t.slots, mixer := t.mixer, calls := t.calls, lane := t.lane } :=
  ⟨m.callEnd_ends hr h why side, Node.eq_of_outsideCalls ((m.callEnd_outsideCalls r why side).trans ho)⟩

/-- A call ended as its path count goes up (R138). -/
theorem Node.countedPath_ends (n : Node) {r : Nat} (hr : r < n.calls.records.length) (h : (n.call r).state ≠ .idle) :
    let t := (n.modCall r fun c => { c with path := c.path + 1 }).callEnd r .pathLost .here
    t.callEnded r .pathLost .here = true ∧
      t = { n with slots := t.slots, mixer := t.mixer, calls := t.calls, lane := t.lane } := by
  refine Node.callEnd_from rfl ?_ ?_ .pathLost .here
  · show r < (n.calls.records.modify r _).length
    rwa [List.length_modify]
  · rwa [n.call_modCall_self r _ hr]

/-- A record that a call id names is in a call (R126). -/
theorem Node.state_of_recordOf {n : Node} {id r : Nat} (h : n.recordOf id = some r) : (n.call r).state ≠ .idle := by
  have := List.find?_some h
  simp only [Bool.and_eq_true, decide_eq_true_eq] at this
  exact this.1

/-- A record reaches the limit of its state at its timer's next count (R130, R131, R136). -/
theorem Node.callDue_of {n : Node} {r limit : Nat} {st : CallState} (hs : (n.call r).state = st)
    (hl : (n.call r).limit = some limit) (ht : limit ≤ (n.call r).timer + 1) : n.callDue r st = true := by
  simp [Node.callDue, hs, hl, ht]

theorem exec_offerTimeout {s : State} {r : Nat} (h : s.node.callDue r .offering = true) :
    exec (.offerTimeout r) s = .next { s with node := s.node.offerTimeout r } :=
  onNode_due (due := fun n => n.callDue r .offering) (work := fun n => n.offerTimeout r) h

theorem exec_alertingTimeout {s : State} {r : Nat} (h : s.node.callDue r .alerting = true) :
    exec (.alertingTimeout r) s = .next { s with node := s.node.callEnd r .noAnswer .here } :=
  onNode_due (due := fun n => n.callDue r .alerting) (work := fun n => n.callEnd r .noAnswer .here) h

theorem exec_ringingTimeout {s : State} {r : Nat} (h : s.node.callDue r .ringing = true) :
    exec (.ringingTimeout r) s = .next { s with node := s.node.callEnd r .noAnswer .here } :=
  onNode_due (due := fun n => n.callDue r .ringing) (work := fun n => n.callEnd r .noAnswer .here) h

/-- PATH_LOST, when the coming frame brings the record's path count to 48 (R138). -/
theorem exec_pathLost {s : State} {r : Nat} (h : s.node.pathDue r = true) : exec (.pathLost r) s = .next { s with
    node := (s.node.modCall r fun c => { c with path := c.path + 1 }).callEnd r .pathLost .here } :=
  onNode_due (due := fun n => n.pathDue r)
    (work := fun n => (n.modCall r fun c => { c with path := c.path + 1 }).callEnd r .pathLost .here) h

/-- PATH_LOST in a held frame time changes nothing (R138). -/
theorem exec_pathLost_held {s : State} (r : Nat) (h : s.node.heldTime = true) : exec (.pathLost r) s = .next s := by
  have : s.node.pathRow r = s.node := if_neg (by simp [Node.pathDue, h])
  exact congrArg (fun m => Host.Outcome.next { s with node := m }) this

/-- A signalling packet at the head of the inbound queue is taken by a running node (R126, R185). -/
theorem Node.takeSignalling_head {n : Node} {p : Packet} {rest : List Packet} {kind : Nat} (hi : n.lane.inbound = p :: rest)
    (hs : n.mgmt.node = .running) (hh : n.mgmt.held = false) (hk : p.kind = kind) (work : Node → Packet → Node) :
    n.takeSignalling kind work = work n.popInbound p := by
  simp [Node.takeSignalling, Node.running, hi, hs, hh, hk]

theorem exec_clear {s : State} {m : Node} (h : s.node.takeSignalling 0x94 Node.takeClear = m) :
    exec .clear s = .next { s with node := m } := by
  show Host.Outcome.next { s with node := s.node.takeSignalling 0x94 Node.takeClear } = _
  rw [h]

theorem exec_reject {s : State} {m : Node} (h : s.node.takeSignalling 0x93 Node.takeReject = m) :
    exec .reject s = .next { s with node := m } := by
  show Host.Outcome.next { s with node := s.node.takeSignalling 0x93 Node.takeReject } = _
  rw [h]

/-- A CLEAR of the record that its to id names, with a reason of the table, ends the call for that reason (R126, R134). -/
theorem Node.takeClear_ends {n : Node} {p : Packet} {r : Nat} {why : Reason} (hid : n.recordOf (byteAt p.payload 0) = some r)
    (hwhy : Reason.ofCode (byteAt p.payload 2) = some why) (hlen : p.payload.length = 3)
    (hm : (n.call r).matchesPacket p (byteAt p.payload 1) = true) : n.takeClear p = n.callEnd r why .remote := by
  simp [Node.takeClear, hid, hwhy, hlen, hm]

/-- A REJECT at a caller in ALERTING, with its identifier present, ends the call for its reason (R131, R134). -/
theorem Node.takeReject_ends {n : Node} {p : Packet} {r : Nat} {why : Reason} (hid : n.recordOf (byteAt p.payload 0) = some r)
    (hwhy : Reason.ofCode (byteAt p.payload 3) = some why) (hlen : p.payload.length = 4)
    (hm : (n.call r).matchesPacket p (byteAt p.payload 1) = true) (hr : (n.call r).role = .caller)
    (hs : (n.call r).state = .alerting) (hpresent : byteAt p.payload 2 = 1) : n.takeReject p = n.callEnd r why .remote := by
  simp [Node.takeReject, CallRecord.offers, hid, hwhy, hlen, hm, hr, hs, hpresent]

/-! ## The 48th frame without the listen slot -/

/-- The coming frame brings a path count of 47 to 48: a frame time that is not held shows the listen slot gone (R138). -/
theorem Node.pathDue_of {n : Node} {r k : Nat} {f : SlotField} (hs : (n.call r).supervises = true) (hp : 47 ≤ (n.call r).path)
    (hg : n.willGenerate = true ∨ (n.call r).changed = false) (hh : n.heldTime = false) (hl : (n.call r).listen = some k)
    (hc : n.comingHeader k = some f) (hf : (n.call r).slotGone f = true) : n.pathDue r = true := by
  have hpath : 48 ≤ (n.call r).path + 1 := by omega
  rcases hg with hg | hg <;> simp [Node.pathDue, hs, hpath, hg, hh, hl, hc, hf]

/-- A waiting frame is the one that the node's primary input holds. -/
theorem Node.waitingFrame_eq {n : Node} {p : Port} {f : Frame} (h : n.waitingFrame = some (p, f)) :
    n.ring.wrap.primary = some p ∧ n.ring.arrival p = .frame f := by
  unfold Node.waitingFrame at h
  split at h
  · simp at h
  · rename_i q hq
    split at h
    · rename_i g hg
      obtain ⟨rfl, rfl⟩ : q = p ∧ g = f := by simpa using h
      exact ⟨hq, hg⟩
    · simp at h
    · simp at h

/-- The header that an undamaged frame waiting at a relaying node shows. -/
theorem Node.comingHeader_slave {n : Node} {p : Port} {f : Frame} (h : n.waitingFrame = some (p, f)) (hr : n.ring.role = false)
    (hu : f.undamaged = true) (k : Nat) : n.comingHeader k = some (headerOf f.slots k) := by
  simp [Node.comingHeader, Node.willGenerate, Node.isMaster, hr, h, hu]

/-- A stamped header of the register (R17). -/
theorem Node.registerHeaders_stamped (n : Node) {k : Nat} (hk : k ≤ 63) : (headerOf n.registerHeaders k).stamped = true := by
  have hlt : k < 64 := by omega
  have hheader : headerOf n.registerHeaders k =
      .make (n.reg k).owner (n.reg k).cls true false (n.ring.lastGood.getD k 0) := by
    simp [headerOf, Node.registerHeaders, List.getD_eq_getElem?_getD, hlt]
  have hcls : (n.reg k).cls % 8 < 8 := Nat.mod_lt _ (by decide)
  rw [hheader]
  show (byte ((n.reg k).cls % 8 + 8 + 0)).getLsbD 3 = true
  generalize (n.reg k).cls % 8 = c at hcls
  interval_cases c <;> decide

/-- A running master that finds its own address in the waiting frame generates (R17, R18). -/
theorem Node.willGenerate_own {n : Node} {p : Port} {f : Frame} (h : n.waitingFrame = some (p, f)) (hr : n.ring.role = true)
    (hs : n.mgmt.node = .running) (ha : f.master.toNat = n.mgmt.address) : n.willGenerate = true := by
  simp [Node.willGenerate, Node.willYield, Node.yieldsTo, Node.isForeign_own ha, Node.isMaster, Node.running, hr, hs, h]

/-- The header that the register of a generating master with a primary input shows. -/
theorem Node.comingHeader_master {n : Node} {p : Port} (h : n.willGenerate = true) (hp : n.ring.wrap.primary = some p) (k : Nat) :
    n.comingHeader k = some (headerOf n.registerHeaders k) := by
  have hw : n.ring.wrap ≠ .isolated := by
    intro e
    simp [e, WrapState.primary] at hp
  simp [Node.comingHeader, h, hw]

/-- The frame time of a waiting frame is a held one exactly when the frame makes it so (R10). -/
theorem Node.heldTime_waiting {n : Node} {p : Port} {f : Frame} (h : n.waitingFrame = some (p, f)) : n.heldTime = n.holdsTime f := by
  obtain ⟨hp, ha⟩ := Node.waitingFrame_eq h
  rw [Node.heldTime_at hp, ha]
  rfl

/-- Settles O49: what a listen slot's header does to the path count, which frame times count none, and the event that ends a
call for each reason, by the rule of `callEnd` on the node that each event ends it from. -/
theorem callsEndWithTheirReason : Obligations.CallsEndWithTheirReason := by
  refine ⟨?_, ?_, ?_⟩
  · intro n h r c watched counts
    have supervises : c.supervises = true ↔ watched := c.supervises_iff
    refine ⟨fun hl => Node.pathStep_none hl h, fun k hl => ?_⟩
    intro f
    have step := Node.pathStep_some hl h
    refine ⟨fun hstay => ?_, fun hw hc hs => ?_⟩
    · rw [step, if_pos]
      rw [← supervises] at hstay
      simpa using hstay
    · have read : ¬(!c.supervises ∨ c.changed ∨ !f.stamped) := by simp [supervises.2 hw, hc, hs]
      refine ⟨fun hown => ?_, fun hother hlt => ?_⟩
      · have kept : ¬c.slotGone f = true := fun h => ((c.slotGone_iff f).1 h).2 hown
        exact step.trans ((if_neg read).trans (if_neg kept))
      · have gone : c.slotGone f = true := (c.slotGone_iff f).2 ⟨hs, hother⟩
        have below : ¬48 ≤ c.path + 1 := by omega
        exact step.trans ((if_neg read).trans ((if_pos gone).trans ((if_neg below).trans (Node.modCall_congr rfl))))
  · intro n h hr hs
    refine ⟨fun hw => Node.readGenerated_isolated hw h, fun p hp => ?_⟩
    intro held
    have hheld : n.heldTime = true ↔ held := Node.heldTime_master hr hs hp
    rw [Node.readGenerated_primary hp]
    exact ⟨fun h => if_pos (hheld.2 h), fun h => if_neg fun h' => h (hheld.1 h')⟩
  · intro r s hinv hr8 n c ends
    have hr : r < n.calls.records.length := by rw [Node.records_len hinv]; omega
    have ended (hs : c.supervises = true) := n.countedPath_ends hr (CallRecord.state_of_supervises hs)
    refine ⟨fun who id hready hid => ?_, fun hrole hstate ht => ?_, fun hrole hstate ht => ?_, fun hrole hstate ht => ?_,
      fun p f k hw hrole hg hd hs hl hst hrem hp hc => ?_, fun p f k hw hrole hrun hg hd ha hs hl hk hrem hp => ?_,
      fun p hp ha => ?_, fun p rest why hi hrun hh hid hrem hremid => ?_⟩
    · have hangup : n.reserve.hangupId who id = (n.reserve.callEnd r .hangup .here).respond who 0x27 .ok [byte id] := by
        have hid' : n.reserve.recordOf id = some r := hid
        rw [Node.hangupId, hid']
      obtain ⟨hends, hrest⟩ := Node.callEnd_from (m := n.reserve) (n := n) rfl hr (Node.state_of_recordOf hid) .hangup .here
      refine ⟨(n.reserve.callEnd r .hangup .here).respond who 0x27 .ok [byte id],
        (onNode_taken hready _).trans (congrArg (fun m => Host.Outcome.next { s with node := m }) hangup), hends, ?_⟩
      exact Node.eq_of_outsideCalls (n.reserve.callEnd_outsideCalls r .hangup .here)
    · have due : n.callDue r .offering = true :=
        Node.callDue_of hstate (by simp only [CallRecord.limit]; rw [hstate, hrole]) (Nat.succ_le_succ ht)
      have live : c.state ≠ .idle := by rw [hstate]; decide
      refine ⟨fun hnone => ?_, fun why hwhy => ?_⟩
      · have notFound : n.offerTimeout r = n.callEnd r .notFound .here := by
          rw [Node.offerTimeout, hnone]
        exact ⟨_, notFound ▸ exec_offerTimeout due, Node.callEnd_from rfl hr live _ _⟩
      · have rejected : n.offerTimeout r = n.callEnd r why .remote := by
          rw [Node.offerTimeout, hwhy]
        exact ⟨_, rejected ▸ exec_offerTimeout due, Node.callEnd_from rfl hr live _ _⟩
    · have due : n.callDue r .alerting = true :=
        Node.callDue_of hstate (by simp only [CallRecord.limit]; rw [hstate, hrole]) (Nat.succ_le_succ ht)
      exact ⟨_, exec_alertingTimeout due, Node.callEnd_from rfl hr (by rw [hstate]; decide) _ _⟩
    · have due : n.callDue r .ringing = true :=
        Node.callDue_of hstate (by simp only [CallRecord.limit]; rw [hstate, hrole]) (Nat.succ_le_succ ht)
      exact ⟨_, exec_ringingTimeout due, Node.callEnd_from rfl hr (by rw [hstate]; decide) _ _⟩
    · have hu : f.undamaged = true := by simp [Frame.undamaged, hg, hd]
      have unheld : n.heldTime = false := by
        rw [Node.heldTime_waiting hw, Node.holdsTime_slave hrole, hg, hd]
        rfl
      have due : n.pathDue r = true := Node.pathDue_of hs hp (.inr hc) unheld hl (Node.comingHeader_slave hw hrole hu k)
        ((c.slotGone_iff _).2 ⟨hst, hrem⟩)
      exact ⟨_, exec_pathLost due, ended hs⟩
    · have unheld : n.heldTime = false := by
        rw [Node.heldTime_waiting hw, Node.holdsTime_own ha, hg, hd]
        rfl
      have generates := Node.willGenerate_own hw hrole hrun ha
      have due : n.pathDue r = true := Node.pathDue_of hs hp (.inl generates) unheld hl
        (Node.comingHeader_master generates (Node.waitingFrame_eq hw).1 k)
        ((c.slotGone_iff _).2 ⟨n.registerHeaders_stamped hk, hrem⟩)
      exact ⟨_, exec_pathLost due, ended hs⟩
    · refine exec_pathLost_held r ?_
      show n.heldTime = true
      rw [Node.heldTime_at hp, ha]
      rfl
    · have live := Node.state_of_recordOf hid
      have matching : c.matchesPacket p (byteAt p.payload 1) = true := by simp [CallRecord.matchesPacket, hrem, hremid]
      refine ⟨fun hk hlen hwhy => ?_, fun hk hlen hpresent hwhy hrole hstate => ?_⟩
      · have clear : s.node.takeSignalling 0x94 Node.takeClear = s.node.popInbound.callEnd r why .remote :=
          (Node.takeSignalling_head hi hrun hh hk _).trans (Node.takeClear_ends hid hwhy hlen matching)
        exact ⟨n.popInbound.callEnd r why .remote, exec_clear clear,
          Node.callEnd_from (m := n.popInbound) (n := n) rfl hr live _ _⟩
      · have reject : s.node.takeSignalling 0x93 Node.takeReject = s.node.popInbound.callEnd r why .remote :=
          (Node.takeSignalling_head hi hrun hh hk _).trans
            (Node.takeReject_ends hid hwhy hlen matching hrole hstate hpresent)
        exact ⟨n.popInbound.callEnd r why .remote, exec_reject reject,
          Node.callEnd_from (m := n.popInbound) (n := n) rfl hr live _ _⟩

end Sys2Proof.Machine
end

section
/-! PROOF. What a frame time counts, drives and sends (O34). -/

namespace Sys2Proof.Machine

/-! ## The frame counter (R3) -/

/-- What a frame time without a reset changes at its beginning alone: the frame counter and the pins; and whether a RESTART is
under way (R195). -/
structure Clock where
  counter : Nat
  pins : Pins
  restarting : Bool

/-- Those parts of a node. -/
def Node.clock (n : Node) : Clock := { counter := n.ring.counter, pins := n.pins, restarting := n.mgmt.restart.isSome }

theorem Node.clock_of_kept {m n : Node} (h : m.kept = n.kept) : m.clock = n.clock := by
  have counter : m.ring.settings.counter = n.ring.settings.counter := congrArg (fun k => k.ring.counter) h
  have pins : m.pins = n.pins := congrArg Kept.pins h
  have restarting : m.mgmt.restart.isSome = n.mgmt.restart.isSome := congrArg Kept.restarting h
  rw [Node.clock, Node.clock, pins, restarting]
  exact congrArg (Clock.mk · _ _) counter

theorem Node.startStep_clock (n : Node) : n.startStep.clock = n.clock := by
  have loaded : n.loadConfig.clock = n.clock := by
    unfold Node.loadConfig
    dsimp only
    split <;> rfl
  have left : n.leave.clock = n.clock := (Node.clock_of_kept (Node.alarmEvent_kept _)).trans rfl
  unfold Node.startStep
  repeat' split
  · exact loaded
  · rfl
  · exact left
  · rfl
  · rfl

theorem Node.resumeStep_clock (n : Node) : n.resumeStep.clock = n.clock := by
  have resumed : n.resume.clock = n.clock := by
    rw [Node.resume, Node.clock_of_kept (foldl_kept _ Node.decidePending_kept _ _),
      Node.clock_of_kept (foldl_kept _ (fun n (c : Claim) => Node.tell_kept n c.user .noSlot) _ _),
      Node.clock_of_kept (Node.resumeTable_kept _), Node.clock_of_kept (Node.loseAllHeld_kept _),
      Node.clock_of_kept (Node.relayEmpty_kept _), Node.clock_of_kept (Node.emptyRegister_kept _)]
    rfl
  unfold Node.resumeStep
  split
  · exact resumed
  · rfl

/-! A phase of a flash operation writes flash, the queue and what waits for the bank (R168, R172). -/

theorem Node.setFlash_clock (n : Node) (m : List Host.Cell) : (n.setFlash m).clock = n.clock := rfl

theorem Node.completePhase_clock (n : Node) (op : FlashOp) : (n.completePhase op).clock = n.clock := by
  unfold Node.completePhase
  dsimp only
  split
  · rfl
  · rw [Node.clock_of_kept ((Node.setOps_kept _ _).trans ((Node.serveBank_kept _ _).trans (Node.setOps_kept _ _)))]
    exact n.setFlash_clock _
  · rw [Node.clock_of_kept ((Node.considerHead_kept _).trans ((Node.serveBank_kept _ _).trans (Node.finishOp_kept _ _ _ _)))]
    exact n.setFlash_clock _
  · rw [Node.clock_of_kept ((Node.considerHead_kept _).trans ((Node.serveBank_kept _ _).trans (Node.finishWrite_kept _ _)))]
    exact n.setFlash_clock _

theorem Node.abandonPhase_clock (n : Node) (op : FlashOp) : (n.abandonPhase op).clock = n.clock := by
  have counted (m : List Host.Cell) (k : Nat) : ({ n.setFlash m with freeCount := k } : Node).clock = n.clock := rfl
  unfold Node.abandonPhase
  split
  · rfl
  · exact counted _ _
  · exact counted _ _

theorem Node.siglockRead_clock (n : Node) : n.siglockRead.clock = n.clock := by
  unfold Node.siglockRead
  repeat' split
  · rfl
  · exact (Node.clock_of_kept ((Node.considerHead_kept _).trans
      ((Node.serveBank_kept _ _).trans (Node.finishOp_kept _ _ _ _)))).trans (n.abandonPhase_clock _)
  · rfl

theorem Node.flashStep_clock (n : Node) : n.flashStep.clock = n.clock := by
  have ticked : n.phaseTick.clock = n.clock := by
    unfold Node.phaseTick
    repeat' split
    · rfl
    · rfl
    · exact n.completePhase_clock _
    · rfl
  unfold Node.flashStep
  repeat' split
  · exact n.siglockRead_clock
  · rfl
  · exact ticked

theorem Node.hearsWaiting_clock (n : Node) : n.hearsWaiting.clock = n.clock := by
  unfold Node.hearsWaiting
  repeat' split
  all_goals rfl

/-- A generated window brings no reset while no RESTART is under way (R195). -/
theorem Node.generateLane_restarts {n : Node} (seq : Nat) (h : n.clock.restarting = false) :
    (n.generateLane seq).restarts = false := by
  have opened : (if seq % 8 = 0 then n.openWindow else n).headRestarts = false := by
    have idle : n.mgmt.restart.isSome = false := h
    split <;> simp [Node.headRestarts, Node.openWindow, idle]
  unfold Node.generateLane
  dsimp only
  generalize (if seq % 8 = 0 then n.openWindow else n) = m at opened
  split
  · exact opened
  · rfl

theorem Node.generate_clock {n : Node} (h : n.clock.restarting = false) : n.generate.clock = n.clock := by
  have read (hs : Headers) : (n.readGenerated hs).clock.restarting = false := by
    rw [Node.clock_of_kept (n.readGenerated_kept hs), h]
  unfold Node.generate
  dsimp only
  rw [if_neg (by rw [Node.generateLane_restarts _ (read _)]; decide)]
  exact Node.clock_of_kept ((Node.sendGenerated_kept _ _ _).trans ((Node.generateLane_kept _ _).trans (Node.readGenerated_kept _ _)))

theorem Node.ringTick_clock {n : Node} (h : n.clock.restarting = false) : n.ringTick.clock = n.clock := by
  have heard : (if n.missingAt.isSome then n.missed else n).hearsWaiting.clock = n.clock := by
    rw [Node.hearsWaiting_clock]
    split
    · exact Node.clock_of_kept n.missed_kept
    · rfl
  unfold Node.ringTick
  dsimp only
  generalize (if n.missingAt.isSome then n.missed else n).hearsWaiting = m at heard
  split
  · exact Node.clock_of_kept n.startingLinks_kept
  split
  · exact (Node.generate_clock (heard ▸ h)).trans heard
  · exact (Node.clock_of_kept m.slaveLinks_kept).trans heard

theorem Node.restartStep_clock {n : Node} (h : n.clock.restarting = false) : n.restartStep.clock = n.clock := by
  have none : n.mgmt.restart = none := by simpa [Node.clock] using h
  simp [Node.restartStep, none]

theorem Node.runFrame_clock {n : Node} (h : n.clock.restarting = false) : n.runFrame.clock = n.clock := by
  have before : n.counts.resumeStep.sounds.flashStep.periodStep.clock = n.clock := by
    rw [Node.clock_of_kept (Node.periodStep_kept _), Node.flashStep_clock, Node.clock_of_kept (Node.sounds_kept _),
      Node.resumeStep_clock, Node.clock_of_kept n.counts_kept]
  have sent : n.counts.resumeStep.sounds.flashStep.periodStep.ringTick.clock = n.clock :=
    (Node.ringTick_clock (by rw [before, h])).trans before
  unfold Node.runFrame
  dsimp only
  generalize n.counts.resumeStep.sounds.flashStep.periodStep.ringTick = b at sent
  split
  · have timed : ([0, 1].foldl Node.playerEnd b).computeZones.contactStep.timerEvents.clock = n.clock :=
      (Node.clock_of_kept ((Node.timerEvents_kept _).trans ((Node.contactStep_kept _).trans ((Node.computeZones_kept _).trans
        (foldl_kept _ Node.playerEnd_kept _ _))))).trans sent
    exact (Node.clock_of_kept (Node.endFrame_kept _ _)).trans ((Node.restartStep_clock (by rw [timed, h])).trans timed)
  · exact (Node.clock_of_kept (Node.endFrame_kept _ _)).trans sent

/-- A frame time without RESET_N and without a RESTART under way: the frame counter advances once and the pins are the new ones
(R3). -/
theorem Node.frameTick_clock {n : Node} (pins : Pins) (hh : n.mgmt.held = false) (hr : n.mgmt.restart = none) :
    (n.frameTick pins).clock = (n.beginFrame pins).clock ∧ (n.frameTick pins).early = [] := by
  have begun : (n.beginFrame pins).startStep.clock = (n.beginFrame pins).clock := Node.startStep_clock _
  have idle : (n.beginFrame pins).startStep.clock.restarting = false := by
    rw [begun]
    show n.mgmt.restart.isSome = false
    rw [hr]
    rfl
  unfold Node.frameTick
  rw [if_neg (by simp [hh])]
  dsimp only
  split
  · refine ⟨(Node.runFrame_clock idle).trans begun, ?_⟩
    unfold Node.runFrame
    dsimp only
    split <;> rfl
  · exact ⟨(Node.clock_of_kept (Node.endFrame_kept _ _)).trans ((Node.ringTick_clock idle).trans begun), rfl⟩

/-! ## A frame time while RESET_N is held (R195) -/

/-- A frame time while RESET_N is held writes the pins, the links and what the receivers hold alone (R195, log 25). -/
theorem Node.heldTick_ring (n : Node) (pins : Pins) : n.heldTick pins = { n with pins := pins, ring := (n.heldTick pins).ring } ∧
    (n.heldTick pins).ring = { n.ring with
      westIn := (n.heldTick pins).ring.westIn, eastIn := (n.heldTick pins).ring.eastIn
      txEast := { n.ring.txEast with out := none }, txWest := (n.heldTick pins).ring.txWest } := by
  unfold Node.heldTick Node.startingLinks
  dsimp only
  split <;> exact ⟨rfl, rfl⟩

/-! ## The frame time as an event (R3) -/

theorem exec_frameTime {s : State} {pins : Pins} {m : Node} (h : s.node.frameTick pins = m) :
    exec (.frameTime pins) s = .next { s with node := m } := by
  show Host.Outcome.next { s with node := s.node.frameTick pins } = _
  rw [h]

/-- A node that has left STARTING, with RESET_N released, runs its whole frame time. -/
theorem Node.frameTick_started {n : Node} (pins : Pins) (hh : n.mgmt.held = false) (hs : n.mgmt.node ≠ .starting) :
    n.frameTick pins = (n.beginFrame pins).runFrame := by
  have started : (n.beginFrame pins).startStep = n.beginFrame pins := if_neg (by simp [Node.startingUp, Node.beginFrame, hs])
  unfold Node.frameTick
  rw [if_neg (by simp [hh]), started]
  exact if_pos (decide_eq_true hs)

/-- A frame time that goes on after its frame was sent, no reset having followed the sending (R195): the players' ends, the zone computations,
contacts and timers follow (R81, R191). -/
theorem Node.runFrame_started {n sent : Node} (hs : n.counts.resumeStep.sounds.flashStep.periodStep.ringTick = sent)
    (h : sent.mgmt.node ≠ .starting) :
    let ended := [0, 1].foldl Node.playerEnd sent
    n.runFrame =
      (ended.computeZones.contactStep.timerEvents.restartStep).endFrame (ended.foundStacks (List.range 16)) := by
  have started : sent.started = true := decide_eq_true h
  unfold Node.runFrame
  dsimp only
  rw [hs, if_pos started, zoneIndices]

/-! ## The status outputs (R191) -/

theorem ZoneStacks.alarmAny_eq (found : ZoneStacks) : found.alarmAny =
    decide (∃ z ∈ List.range 16, ∃ l ∈ found.getD z [], l.state ≠ .releasing ∧ (l.binding = 62 ∨ l.binding = 63)) := by
  rw [Bool.eq_iff_iff]
  simp [ZoneStacks.alarmAny, ZoneStacks.ofZone, Layer.live, isAlarmId, zoneIndices]

theorem Node.zoneClass_eq (n : Node) (found : ZoneStacks) (zones : Mask16) (kinds : KindMask) (c : Nat) :
    n.zoneClass found zones kinds c = decide (∃ z ∈ List.range 16, zones.getLsbD z = true ∧
      kinds.getLsbD (n.zone z).kind.code = true ∧ ∃ l ∈ found.getD z [], l.state ≠ .releasing ∧ c ≤ l.cls) := by
  rw [Bool.eq_iff_iff]
  simp [Node.zoneClass, ZoneStacks.ofZone, Layer.live, zoneIndices, and_assoc]

theorem Node.callRinging_eq (n : Node) :
    n.callRinging = decide (∃ c ∈ n.calls.records, c.role = .callee ∧ c.state = .ringing) := by
  rw [Bool.eq_iff_iff]
  simp [Node.callRinging]

/-! ## A transmitter that keeps its source (R15) -/

theorem Frame.seal_good (f : Frame) : f.seal.good = true := by simp [Frame.good, Frame.seal, Frame.body]

/-- A transmitter that keeps its source sends what its store's head holds, or a fill frame. -/
theorem Tx.send_due {t : Tx} {feed due : Option Frame} {rest : List (Option Frame)} (next : Nat)
    (h : t.store ++ [feed] = due :: rest) : t.send t.source next feed = { t with store := rest }.emit (t.outgoing due) := by
  have kept : t.turnTo t.source next = t := if_pos rfl
  rw [Tx.send, kept, h]

theorem Tx.emit_keeps (t : Tx) (f : Option Frame) :
    (t.emit f).source = t.source ∧ (t.emit f).delay = t.delay ∧ (t.emit f).store = t.store := by
  unfold Tx.emit
  split <;> exact ⟨rfl, rfl, rfl⟩

theorem Tx.emit_some (t : Tx) (f : Frame) : (t.emit (some f)).out = some f ∧ (t.emit (some f)).lastMaster = f.master ∧
    (f.good = true → (t.emit (some f)).lastSeq = some f.seq.toNat) := by
  refine ⟨rfl, rfl, fun hg => ?_⟩
  show some (t.sentSeq f) = _
  rw [Tx.sentSeq, if_pos hg]

/-- The fill frame that a transmitter sends after the number `last` (R15). -/
theorem Tx.emit_fill {t : Tx} (u : Tx) {last : Nat} (h : t.lastSeq = some last) : ∃ f : Frame, t.outgoing none = some f ∧
    f.seq = BitVec.ofNat 8 ((last + 1) % 256) ∧ f.master = t.lastMaster ∧ f.damaged = true ∧ f.good = true ∧
    f.slots = List.replicate 64 .empty ∧ f.lane = List.replicate 8 0 ∧
    (u.emit (some f)).lastSeq = some ((last + 1) % 256) := by
  have fill : t.outgoing none = some (Frame.fill (nextSeq last) t.lastMaster) := by simp only [Tx.outgoing, h]
  have marked : (Frame.fill (nextSeq last) t.lastMaster).damaged = true := by
    show (1 : Byte).getLsbD 0 = true
    decide
  refine ⟨_, fill, rfl, rfl, marked, Frame.seal_good _, rfl, rfl, ?_⟩
  obtain ⟨-, -, hlast⟩ := u.emit_some (Frame.fill (nextSeq last) t.lastMaster)
  rw [hlast (Frame.seal_good _)]
  show some (BitVec.ofNat 8 ((last + 1) % 256)).toNat = _
  rw [BitVec.toNat_ofNat, Nat.mod_mod]

/-! ## Frames sent by a node (R14, R18) -/

theorem Node.sendProcessed_ring (n : Node) (p : Port) (f : Option Frame) : (n.sendProcessed p f).ring = { n.ring with
    txEast := n.ring.txEast.send (.processed p) (n.portNext p) f
    txWest := if n.ring.wrap = .wrapEast then n.ring.txWest.send (.processed p) (n.portNext p) (f.map Frame.markTurned)
      else n.ring.txWest } := by
  unfold Node.sendProcessed
  dsimp only
  split
  · rfl
  · rfl

theorem Node.isMaster_iff (n : Node) : n.isMaster = true ↔ n.ring.role = true ∧ n.mgmt.node = .running := by
  simp [Node.isMaster, Node.running]

/-- The Ring Interface with both transmitters replaced. -/
def Ring.sending (r : Ring) (east west : Tx) : Ring := { r with txEast := east, txWest := west }

/-- A generated frame writes the two transmitters alone, and always goes east. -/
theorem Node.sendGenerated_ring (n : Node) (source : TxSource) (f : Frame) : (n.sendGenerated source f).ring =
    n.ring.sending (n.ring.txEast.send source f.seq.toNat (some f)) (n.sendGenerated source f).ring.txWest := by
  unfold Node.sendGenerated
  dsimp only
  repeat' split
  all_goals rfl

/-- A frame whose marks byte is 0 has neither mark. -/
theorem Frame.unmarked {f : Frame} (h : f.marks = 0) : f.damaged = false ∧ f.turned = false := by
  simp [Frame.damaged, Frame.turned, h]

theorem isolatedFrame_word (seq : Nat) : (isolatedFrame seq).word = { set := false, code := 0, mask := 0, issuer := 0 } := by
  show AlarmWord.mk ((0 : Byte).getLsbD 7) ((0 : Byte).toNat % 16) 0 (0 : Byte).toNat = _
  decide

theorem AlarmWord.firstByte_reads (w : AlarmWord) :
    w.firstByte.getLsbD 7 = w.set ∧ w.firstByte.toNat % 16 = w.code % 16 := by
  have hcode : w.code % 16 < 16 := Nat.mod_lt _ (by decide)
  unfold AlarmWord.firstByte
  generalize w.code % 16 = c at hcode
  cases w.set <;> interval_cases c <;> decide

/-! ## The frame time, its outputs and its frames (O34) -/

/-- Settles O34: the frame time by what its parts leave of the frame counter, the outputs by the conditions of their sources, and
the frames by the transmitters' rules. -/
theorem frameTimeCounts : Obligations.FrameTimeCounts := by
  refine ⟨?_, ?_, ?_, ?_, ?_, ?_, ?_, ?_⟩
  · intro pins s n
    refine ⟨fun hh => ?_, fun hh hr => ?_, fun hh hs => ?_⟩
    · have held : s.node.frameTick pins = n.heldTick pins := if_pos hh
      obtain ⟨hnode, hring⟩ := n.heldTick_ring pins
      refine ⟨n.heldTick pins, exec_frameTime held, congrArg Node.pins hnode, hnode, ?_⟩
      rw [hring]
      exact ⟨rfl, rfl, rfl, rfl, rfl, rfl⟩
    · obtain ⟨hclock, hearly⟩ := Node.frameTick_clock pins hh hr
      exact ⟨n.frameTick pins, exec_frameTime rfl, congrArg Clock.counter hclock, congrArg Clock.pins hclock, hearly⟩
    · intro begun sent hsent
      have runs : s.node.frameTick pins = begun.runFrame := Node.frameTick_started pins hh hs
      exact exec_frameTime (runs.trans (Node.runFrame_started (sent := sent) rfl hsent))
  · intro n z hz
    have hlt : z < 16 := by omega
    rw [List.getD_eq_getElem?_getD, Node.foundStacks_get, List.take_range, Nat.min_eq_left hlt.le]
    simp [hlt]
  · intro n found
    refine ⟨rfl, rfl, List.map_congr_left fun o _ => ?_⟩
    rw [Node.driveOne, Node.condition, bne_comm]
    cases o.source with
    | fixed => rfl
    | ringOk => simp [Node.ringOk, Node.started]
    | ringAny => simp [Node.ringAny, Node.started]
    | alarmAny => rw [ZoneStacks.alarmAny_eq]; rfl
    | zoneClass => rw [Node.zoneClass_eq]; rfl
    | callRinging => rw [Node.callRinging_eq]; rfl
    | contactEcho => rfl
  · intro t next feed due rest h u
    have sends : u = { t with store := rest }.emit (t.outgoing due) := Tx.send_due next h
    obtain ⟨hsource, hdelay, hstore⟩ := Tx.emit_keeps { t with store := rest } (t.outgoing due)
    rw [sends]
    refine ⟨hsource, hdelay, hstore, fun f hf => ?_, fun hd hl => ?_, fun last hd hl => ?_⟩
    · subst hf
      exact Tx.emit_some { t with store := rest } f
    · subst hd
      have nothing : t.outgoing none = none := by simp only [Tx.outgoing, hl]
      rw [nothing]
      exact ⟨rfl, hl⟩
    · subst hd
      obtain ⟨f, hf, hseq, hmaster, hdamaged, hgood, hslots, hlane, hlast⟩ := Tx.emit_fill { t with store := rest } hl
      rw [hf]
      exact ⟨f, rfl, hseq, hmaster, hdamaged, hgood, hslots, hlane, hlast⟩
  · intro n p f next
    exact n.sendProcessed_ring p f
  · intro n source f both
    refine (n.sendGenerated_ring source f).trans (congrArg (n.ring.sending (n.ring.txEast.send source f.seq.toNat (some f))) ?_)
    unfold Node.sendGenerated
    cases n.ring.wrap with
    | through =>
      simp only [Bool.and_eq_true, Node.isMaster_iff]
      split <;> rfl
    | wrapWest => rfl
    | wrapEast => rfl
    | isolated => rfl
  · intro n seq h lane f g
    obtain ⟨hset, hcode⟩ := n.alarm.source.firstByte_reads
    obtain ⟨hdamaged, hturned⟩ := Frame.unmarked (f := f) rfl
    obtain ⟨gdamaged, gturned⟩ := Frame.unmarked (f := g) rfl
    exact ⟨Frame.seal_good _, rfl, rfl, hdamaged, hturned, rfl, rfl, hset, hcode, rfl, rfl, Frame.seal_good _, rfl, rfl, gdamaged,
      gturned, isolatedFrame_word seq, rfl, rfl⟩
  · intro n seq headers slots lane
    exact ⟨fun hrestarts => if_neg (Bool.eq_false_iff.1 hrestarts), fun hw => if_pos hw⟩

end Sys2Proof.Machine
end

section
/-! PROOF. The reads that change nothing (O8). -/

namespace Sys2Proof.Machine

/-- A command whose work is an OK response alone enqueues its answer and changes nothing else. -/
theorem onNode_answers {s : State} {who : Req} (h : s.node.ready who = true) {work : Node → Node} {kind : Nat}
    {results : List Byte} (hwork : work s.node.reserve = s.node.reserve.respond who kind .ok results) :
    onNode (fun n => n.taken who work) s =
      .next { s with node := s.node.enqueue (s.node.answer who kind .ok results) } := by
  rw [onNode_taken h, hwork, Node.reserve_respond]

/-! ## Reads with parameters in range (R42, R60, R79, R146) -/

theorem Node.readSlots_slots (n : Node) (who : Req) {first count : Nat} (hf : first ≤ 63) (h1 : 1 ≤ count) (h8 : count ≤ 8) :
    n.readSlots who 0 first count = n.respond who 0x0E .ok ((viewIndices first count 63).flatMap n.slotReport) := by
  have hcount : ¬(count = 0 ∨ 8 < count) := by omega
  have hfirst : ¬63 < first := by omega
  simp [Node.readSlots, hcount, hfirst]

theorem Node.readSlots_talks (n : Node) (who : Req) {first count : Nat} (hf : first ≤ 7) (h1 : 1 ≤ count) (h8 : count ≤ 8) :
    n.readSlots who 1 first count =
      n.respond who 0x0E .ok ((viewIndices first count 7).flatMap fun i => (n.talk i).report) := by
  have hcount : ¬(count = 0 ∨ 8 < count) := by omega
  have hfirst : ¬7 < first := by omega
  simp [Node.readSlots, hcount, hfirst]

theorem Node.readBinding_answers (n : Node) (who : Req) {id : Nat} (h : id ≤ 63) :
    n.readBinding who id = n.respond who 0x15 .ok (bindingReport (n.binding id)) := if_neg (by omega)

theorem Node.readStack_answers (n : Node) (who : Req) {z : Nat} (h : z ≤ 15) : n.readStack who z =
    n.respond who 0x1A .ok ([byte (n.stack z).length] ++ (n.stack z).flatMap n.layerReport) := if_neg (by omega)

theorem Node.readCalls_calls (n : Node) (who : Req) {first count : Nat} (hf : first ≤ 7) (h1 : 1 ≤ count) (h8 : count ≤ 8) :
    n.readCalls who 0 first count = n.respond who 0x28 .ok ((viewIndices first count 7).flatMap n.callReport) := by
  have hcount : ¬(count = 0 ∨ 8 < count) := by omega
  have hfirst : ¬7 < first := by omega
  simp [Node.readCalls, hcount, hfirst]

theorem Node.readCalls_stations (n : Node) (who : Req) {first count : Nat} (hf : first ≤ 7) (h1 : 1 ≤ count)
    (h8 : count ≤ 8) : n.readCalls who 1 first count =
      n.respond who 0x28 .ok ((viewIndices first count 7).flatMap fun i => (n.station i).bytes) := by
  have hcount : ¬(count = 0 ∨ 8 < count) := by omega
  have hfirst : ¬7 < first := by omega
  simp [Node.readCalls, hcount, hfirst]

/-- Settles O8: each read in range is an OK response alone, and no report reads the reservation made for it. -/
theorem pureReadsAnswerOk : Obligations.PureReadsAnswerOk := by
  intro who s h
  refine ⟨onNode_answers h rfl, fun first count hf h1 h8 => ?_, fun first count hf h1 h8 => ?_, fun id hid => ?_,
    fun z hz => ?_, fun first count hf h1 h8 => ?_, fun first count hf h1 h8 => ?_, onNode_answers h rfl⟩
  · exact onNode_answers h (Node.readSlots_slots _ who hf h1 h8)
  · exact onNode_answers h (Node.readSlots_talks _ who hf h1 h8)
  · exact onNode_answers h (Node.readBinding_answers _ who hid)
  · exact onNode_answers h (Node.readStack_answers _ who hz)
  · exact onNode_answers h (Node.readCalls_calls _ who hf h1 h8)
  · exact onNode_answers h (Node.readCalls_stations _ who hf h1 h8)

end Sys2Proof.Machine
end

section
/-! PROOF. The pool order (O57), and the master slot register and the countdowns of slots (O39). -/

namespace Sys2Proof.Machine

/-! ## The pool order (R25) -/

theorem poolOrder_general {c : Nat} (h : c < 6) : poolOrder c = List.range 56 := if_neg (by omega)

theorem poolOrder_reserve {c : Nat} (h : 6 ≤ c) : poolOrder c = (List.range 8).map (· + 56) ++ List.range 56 := if_pos h

/-- A claim that searches the reserve slots first takes a general slot only when no reserve slot is usable. -/
theorem poolOrder_general_last {c k : Nat} {usable : Nat → Bool} (hc : 6 ≤ c) (hfind : (poolOrder c).find? usable = some k)
    (hk : k < 56) {j : Nat} (hlow : 56 ≤ j) (hhigh : j ≤ 63) : usable j = false := by
  rw [poolOrder_reserve hc, List.find?_append] at hfind
  cases hreserve : ((List.range 8).map (· + 56)).find? usable with
  | some i =>
    obtain ⟨m, -, hm⟩ := List.mem_map.1 (List.mem_of_find?_eq_some hreserve)
    have hik : i = k := by simpa [hreserve] using hfind
    omega
  | none =>
    have hj : j ∈ (List.range 8).map (· + 56) := List.mem_map.2 ⟨j - 56, List.mem_range.2 (by omega), by omega⟩
    simpa using List.find?_eq_none.1 hreserve j hj

/-! ## The register at a header (R27, R29) -/

/-- A stamped header counts against the entry that is taken. -/
theorem Node.registerStep_stamped {h : Headers} {k : Nat} (hs : (headerOf h k).stamped = true) (n : Node) :
    Node.registerStep h n k = if (n.reg k).owner = 0 then n else n.orphanStep k (headerOf h k).fresh := if_pos hs

/-- An unstamped header without an owner frees the entry. -/
theorem Node.registerStep_freed {h : Headers} {k : Nat} (hs : (headerOf h k).stamped = false)
    (ho : (headerOf h k).ownerOf = 0) (n : Node) : Node.registerStep h n k = n.setReg k .reset := by
  simp [Node.registerStep, hs, ho]

/-- A tentative header takes a free entry, in a reserve slot for class 6 and 7 alone. -/
theorem Node.registerStep_tentative {h : Headers} {k : Nat} (hs : (headerOf h k).stamped = false)
    (ho : (headerOf h k).ownerOf ≠ 0) (n : Node) : Node.registerStep h n k =
      if (n.reg k).owner = 0 ∧ (k < 56 ∨ 6 ≤ (headerOf h k).classOf) then
        n.setReg k { owner := (headerOf h k).ownerOf, cls := (headerOf h k).classOf, orphan := 0 }
      else n := by
  simp [Node.registerStep, hs, ho]

/-- Settles O57: the order is by class, its reserve part comes first, and the register records no class below 6 there. -/
theorem poolOrderByClass : Obligations.PoolOrderByClass := by
  refine ⟨fun c hc => poolOrder_general (by omega), fun c hc => ?_, fun c usable k hc hfind hk j => ?_,
    fun h n k hk hs ho hc => ?_⟩
  · rw [poolOrder_reserve (by omega)]
    simp only [Nat.add_comm]
  · exact poolOrder_general_last (by omega) hfind hk
  · have hreserve : ¬(k < 56 ∨ 6 ≤ (headerOf h k).classOf) := by omega
    rw [Node.registerStep_tentative hs ho, if_neg fun ht => hreserve ht.2]

/-- A fresh write clears the orphan count. -/
theorem Node.orphanStep_fresh (n : Node) (k : Nat) : n.orphanStep k true = n.setReg k { n.reg k with orphan := 0 } := rfl

/-- A missing write below the limit is counted. -/
theorem Node.orphanStep_counts {n : Node} {k : Nat} (h : (n.reg k).orphan + 1 < n.ring.orphanLimit) :
    n.orphanStep k false = n.setReg k { n.reg k with orphan := (n.reg k).orphan + 1 } := by
  have hbelow : ¬n.ring.orphanLimit ≤ (n.reg k).orphan + 1 := by omega
  simp [Node.orphanStep, hbelow]

/-- A missing write that reaches the limit frees the entry and is reported. -/
theorem Node.orphanStep_reclaims {n : Node} {k : Nat} (h : n.ring.orphanLimit ≤ (n.reg k).orphan + 1) :
    n.orphanStep k false =
      (n.setReg k .reset).generalNotice 0x82 [byte k, byte (n.reg k).owner, byte (n.reg k).cls] := by
  simp [Node.orphanStep, h]

/-! ## The events of a slot (R29, R36) -/

/-- A notice writes the lane alone. -/
theorem Node.generalNotice_eq (n : Node) (kind : Nat) (payload : List Byte) :
    n.generalNotice kind payload = { n with lane := (n.generalNotice kind payload).lane } := by
  unfold Node.generalNotice Node.notice
  repeat' split
  all_goals rfl

/-- The return that waits at a running master is an undamaged frame of its own (R18). -/
theorem Node.returnWaiting_own {n : Node} {p : Port} {f : Frame} (hw : n.waitingFrame = some (p, f))
    (hr : n.ring.role = true) (hrun : n.mgmt.node = .running) (hg : f.good = true) (hd : f.damaged = false)
    (ha : f.master.toNat = n.mgmt.address) : n.returnWaiting = some f := by
  have hmaster : n.isMaster = true := (n.isMaster_iff).2 ⟨hr, hrun⟩
  simp [Node.returnWaiting, hw, hmaster, Frame.undamaged, hg, hd, Node.address, ha]

/-- ORPHAN_RECLAIM, when the waiting return brings the entry's count to the limit. -/
theorem exec_orphanReclaim {s : State} {k : Nat} (h : s.node.orphanDue k = true) :
    exec (.orphanReclaim k) s = .next { s with node := s.node.orphanStep k false } :=
  onNode_due (due := fun n => n.orphanDue k) (work := fun n => n.orphanStep k false) h

/-- RELEASE_OWED_EXPIRY, when the countdown is at its last frame time. -/
theorem exec_releaseOwedExpiry {s : State} {k : Nat} (h : (s.node.entry k).owed = 1) :
    exec (.releaseOwedExpiry k) s = .next { s with node := s.node.clearOwed k } := by
  show Host.Outcome.next { s with node := if (s.node.entry k).owed = 1 then s.node.clearOwed k else s.node } = _
  rw [if_pos h]

/-- Settles O39: the two events of a slot whose count is full, and the register's case for each kind of header. -/
theorem slotTimersExpire : Obligations.SlotTimersExpire := by
  refine ⟨fun k s => ⟨fun p f hw hr hrun hg hd ha hs hfresh ho hlimit => ?_, exec_releaseOwedExpiry⟩, fun h n k => ?_⟩
  · have due : s.node.orphanDue k = true := by
      simp [Node.orphanDue, Node.returnWaiting_own hw hr hrun hg hd ha, hs, hfresh, ho, hlimit]
    refine ⟨_, exec_orphanReclaim due, ?_⟩
    rw [Node.orphanStep_reclaims hlimit]
    refine ⟨?_, Node.generalNotice_slots _ _ _⟩
    exact (Node.generalNotice_eq _ _ _).trans (by rw [Node.generalNotice_slots]; rfl)
  · refine ⟨fun hs ho => Node.registerStep_freed hs ho n, fun hs ho he hk => ?_, fun hs ho he => ?_, fun hs he => ?_,
      fun hs he hf => ?_, fun hs he hf hlimit => ?_⟩
    · exact (Node.registerStep_tentative hs ho n).trans (if_pos ⟨he, hk⟩)
    · exact (Node.registerStep_tentative hs ho n).trans (if_neg fun ht => he ht.1)
    · exact (Node.registerStep_stamped hs n).trans (if_pos he)
    · rw [Node.registerStep_stamped hs, if_neg he, hf]
      exact n.orphanStep_fresh k
    · rw [Node.registerStep_stamped hs, if_neg he, hf]
      exact Node.orphanStep_counts hlimit

end Sys2Proof.Machine
end

section
/-! PROOF. The talk records' claims: SEND (O19) and UNSEND (O20). -/

namespace Sys2Proof.Machine

/-! ## Claims asked for (R28, R31) -/

/-- A slave's claim joins the pending list, and its user waits. -/
theorem Node.claimFor_slave {n : Node} {u : User} (hnode : n.mgmt.node = .running) (hu : n.hasClaim u = false)
    (hr : n.ring.role = false) (cls : Nat) :
    n.claimFor u cls = (n.setWaiting (n.slots.waiting ++ [n.newClaim u cls])).bumpOrder := by
  simp [Node.claimFor, Node.requestClaim, hnode, hu, hr]

/-- The master decides its own claim at once, and its user is told. -/
theorem Node.claimFor_master {n : Node} {u : User} (hnode : n.mgmt.node = .running) (hu : n.hasClaim u = false)
    (hr : n.ring.role = true) (cls : Nat) : n.claimFor u cls = (n.masterClaim u cls).1.tell u (n.masterClaim u cls).2 := by
  simp [Node.claimFor, Node.requestClaim, hnode, hu, hr]

/-- A slot that the master may take for its own claim: its register entry is free and no release is owed on it (R28). -/
def Node.masterMayTake (n : Node) (k : Nat) : Bool := (n.reg k).owner = 0 && (n.entry k).owed = 0

/-- A table entry changed is the entry that it becomes, written in its place. -/
theorem modify_eq_set_getD {α : Type} (l : List α) (f : α → α) (d : α) (i : Nat) : l.modify i f = l.set i (f (l.getD i d)) := by
  rw [List.modify_eq_set_getElem?, List.getD_eq_getElem?_getD]
  cases h : l[i]? with
  | some a => rfl
  | none => exact (List.set_eq_of_length_le (List.getElem?_eq_none_iff.1 h)).symm

/-- The master holds the first slot that it may take: its register entry and its table entry are written. -/
theorem Node.masterClaim_some {n : Node} {cls k : Nat} (h : (poolOrder cls).find? n.masterMayTake = some k) (u : User) :
    n.masterClaim u cls = ({ n with slots := { n.slots with
      register := n.slots.register.set k { owner := n.address, cls := cls, orphan := 0 }
      table := n.slots.table.set k { state := .held, claim := some (n.newClaim u cls), owed := 0 }
      nextOrder := n.slots.nextOrder + 1 } }, .confirmed k) := by
  have hfind : (poolOrder cls).find? (fun k => (n.reg k).owner = 0 && (n.entry k).owed = 0) = some k := h
  have howed : (n.entry k).owed = 0 := by
    have hmay := List.find?_some hfind
    simp only [Bool.and_eq_true, decide_eq_true_eq] at hmay
    exact hmay.2
  have htable := modify_eq_set_getD n.slots.table
    (fun e => { e with state := .held, claim := some (n.newClaim u cls) }) .reset k
  rw [Node.entry] at howed
  rw [howed] at htable
  rw [Node.masterClaim, hfind]
  simp only [Node.bumpOrder, Node.modEntry, Node.setReg, htable]

/-- Without such a slot the master leaves all as it was. -/
theorem Node.masterClaim_none {n : Node} {cls : Nat} (h : (poolOrder cls).find? n.masterMayTake = none) (u : User) :
    n.masterClaim u cls = (n, .noSlot) := by
  have hfind : (poolOrder cls).find? (fun k => (n.reg k).owner = 0 && (n.entry k).owed = 0) = none := h
  rw [Node.masterClaim, hfind]

/-! ## Talk records told (R39, R40) -/

theorem Node.talkOutcome_confirmed {n : Node} {i : Nat} (h : (n.talk i).state = .claiming) (k : Nat) :
    n.talkOutcome i (.confirmed k) = (n.modTalk i fun t => { t with state := .sending, slot := some k }).respond
      (n.talk i).requester 0x0C .ok [byte k] := if_pos h

theorem Node.talkOutcome_noSlot {n : Node} {i : Nat} (h : (n.talk i).state = .claiming) :
    n.talkOutcome i .noSlot = (n.modTalk i fun t => { t with state := .closed, lastEnd := .noSlot, slot := none }).respond
      (n.talk i).requester 0x0C .noSlot [] := if_pos h

/-! ## SEND (R40) -/

/-- A talk record that a SEND has just opened. -/
def TalkRecord.opened (who : Req) (cls : Nat) : TalkRecord :=
  { state := .claiming, cls := cls, requester := who, slot := none, lastEnd := .none }

/-- The part once SEND has opened a talk record. -/
def Node.openTalk (n : Node) (who : Req) (i cls : Nat) : Node :=
  { n with slots := { n.slots with talks := n.slots.talks.set i (.opened who cls) } }

/-- SEND of a closed input opens its talk record and asks for its claim. -/
theorem Node.sendTalk_closed {n : Node} {i c : Nat} (hi : i ≤ 7) (hc : c ≤ 7) (h6 : c ≠ 6)
    (hclosed : (n.talk i).state = .closed) (who : Req) :
    n.sendTalk who i c = (n.openTalk who i c).claimFor (.talk i) c := by
  have hinput : ¬7 < i := by omega
  have hcls : ¬(7 < c ∨ c = 6) := by omega
  have hopen : (n.modTalk i fun t =>
      { t with state := .claiming, cls := c, requester := who, slot := none, lastEnd := .none }) = n.openTalk who i c := by
    rw [Node.openTalk, List.set_eq_modify]
    rfl
  rw [Node.sendTalk, if_neg hinput, if_neg hcls, if_neg (not_not.2 hclosed), hopen]

/-- An opened record, changed, stands in the table once. -/
theorem modify_set_self {α : Type} (l : List α) (i : Nat) (a : α) (f : α → α) : (l.set i a).modify i f = l.set i (f a) := by
  rw [List.set_eq_modify, List.modify_modify_eq, List.set_eq_modify]
  rfl

/-- An opened record reads as SEND has left it. -/
theorem Node.talk_opened {n : Node} {i c : Nat} {who : Req} {l : List TalkRecord}
    (ht : n.slots.talks = l.set i (.opened who c)) (hi : i < l.length) : n.talk i = .opened who c := by
  rw [Node.talk, ht]
  exact getD_set_self _ _ _ hi

/-- An opened record whose claim is confirmed sends, and its SEND is answered with the slot. -/
theorem Node.tell_opened_confirmed {n : Node} {i c : Nat} {who : Req} {l : List TalkRecord}
    (ht : n.slots.talks = l.set i (.opened who c)) (hi : i < l.length) (k : Nat) : n.tell (.talk i) (.confirmed k) =
      { n with slots := { n.slots with talks := l.set i { TalkRecord.opened who c with state := .sending, slot := some k } }
        }.respond who 0x0C .ok [byte k] := by
  have hrecord := Node.talk_opened ht hi
  rw [Node.tell, Node.talkOutcome_confirmed (by rw [hrecord]; rfl), hrecord, Node.modTalk, ht, modify_set_self]
  rfl

/-- An opened record whose claim fails closes, and its SEND is answered NO_SLOT. -/
theorem Node.tell_opened_noSlot {n : Node} {i c : Nat} {who : Req} {l : List TalkRecord}
    (ht : n.slots.talks = l.set i (.opened who c)) (hi : i < l.length) : n.tell (.talk i) .noSlot =
      { n with slots := { n.slots with talks := l.set i { TalkRecord.opened who c with state := .closed, lastEnd := .noSlot } }
        }.respond who 0x0C .noSlot [] := by
  have hrecord := Node.talk_opened ht hi
  rw [Node.tell, Node.talkOutcome_noSlot (by rw [hrecord]; rfl), hrecord, Node.modTalk, ht, modify_set_self]
  rfl

/-- Settles O19: SEND opens the record and asks for its claim, which waits at a slave and is decided at the master. -/
theorem sendClaimsASlot : Obligations.SendClaimsASlot := by
  intro who i c s hinv hready hi hc h6 hclosed hfree n claim talk first answered
  have hlt : i < n.slots.talks.length := by rw [Node.talks_len hinv]; omega
  have hnode : (n.reserve.openTalk who i c).mgmt.node = .running := Node.ready_running (n := n) hready
  have hnone : (n.reserve.openTalk who i c).hasClaim (.talk i) = false := hfree
  have run : exec (.send who i c) s = .next { s with node := (n.reserve.openTalk who i c).claimFor (.talk i) c } :=
    (onNode_taken hready _).trans
      (congrArg (fun m => Host.Outcome.next { s with node := m })
      (Node.sendTalk_closed (n := n.reserve) hi hc h6 hclosed who))
  refine ⟨fun hr => ?_, fun k hr hfind => ?_, fun hr hfind => ?_⟩
  · rw [run, Node.claimFor_slave hnode hnone hr]
    rfl
  · have hmay : (poolOrder c).find? (n.reserve.openTalk who i c).masterMayTake = some k := hfind
    rw [run, Node.claimFor_master hnode hnone hr, Node.masterClaim_some hmay, Node.tell_opened_confirmed rfl hlt]
    rfl
  · have hmay : (poolOrder c).find? (n.reserve.openTalk who i c).masterMayTake = none := hfind
    rw [run, Node.claimFor_master hnode hnone hr, Node.masterClaim_none hmay, Node.tell_opened_noSlot rfl hlt]
    rfl

/-! ## UNSEND (R36, R41) -/

/-- The two spellings of a claim of another user. -/
theorem bne_eq_decide_ne (u v : User) : (u != v) = decide (u ≠ v) := by
  rw [bne, decide_not]
  rfl

/-- A user's release leaves the entries that serve others, and ends those that serve it. -/
theorem Node.releaseClaim_entry (n : Node) (u : User) (k : Nat) : (n.releaseClaim u).entry k =
    if (n.entry k).serves u then (n.entry k).release n.ring.role else n.entry k :=
  List.getD_map (f := fun e : SlotEntry => if e.serves u then e.release n.ring.role else e) (d := .reset) n.slots.table

/-- At the master a user's release frees the register entries of its slots; elsewhere the register stays. -/
theorem Node.releaseClaim_reg (n : Node) (u : User) (k : Nat) : (n.releaseClaim u).reg k =
    if n.ring.role = true ∧ (n.entry k).serves u = true then .reset else n.reg k := by
  unfold Node.releaseClaim Node.reg
  cases n.ring.role with
  | false => simp
  | true =>
    simp only [if_true, true_and, List.getD_eq_getElem?_getD, List.getElem?_mapIdx]
    cases n.slots.register[k]? with
    | none => simp
    | some r => simp

/-- The part once UNSEND has released the claim of a talk record and closed it. -/
def Node.unsent (n : Node) (i : Nat) : Node := (n.releaseClaim (.talk i)).modTalk i TalkRecord.unsent

/-- The SEND response that a talk record holds while its claim is open (R40), answered NO_SLOT when the record closes. -/
def Node.heldSend (n : Node) (i : Nat) : List Packet :=
  if (n.talk i).state = .claiming then [n.answer (n.talk i).requester 0x0C .noSlot []] else []

/-- UNSEND of an open input: the record closes, and a held SEND response goes out before its own. -/
theorem Node.unsendTalk_open {n : Node} {i : Nat} (hi : i ≤ 7) (hopen : (n.talk i).state ≠ .closed) (who : Req) :
    n.reserve.unsendTalk who i = { n with
      slots := (n.unsent i).slots
      lane := { n.lane with outbound := n.lane.outbound ++ n.heldSend i ++ [n.answer who 0x0D .ok []]
                            reservations := n.lane.reservations - (n.heldSend i).length } } := by
  have hinput : ¬7 < i := by omega
  have htalk : n.reserve.talk i = n.talk i := rfl
  rw [Node.unsendTalk, if_neg hinput]
  dsimp only
  rw [htalk]
  cases hs : (n.talk i).state with
  | closed => exact absurd hs hopen
  | sending =>
    have hheld : n.heldSend i = [] := if_neg (by rw [hs]; decide)
    rw [hheld, List.append_nil]
    rfl
  | claiming =>
    have hheld : n.heldSend i = [n.answer (n.talk i).requester 0x0C .noSlot []] := if_pos hs
    rw [hheld]
    rfl

/-- Settles O20: the record closes and its entry is released whether it sent or claimed; the responses are all that differ. -/
theorem unsendReleasesTheSlot : Obligations.UnsendReleasesTheSlot := by
  intro who i s hinv hready hi hopen n t held
  have run := (onNode_taken hready fun m => m.unsendTalk who i).trans
    (congrArg (fun m => Host.Outcome.next { s with node := m }) (Node.unsendTalk_open hi hopen who))
  have hlt : i < (n.releaseClaim (.talk i)).slots.talks.length := by
    rw [show (n.releaseClaim (.talk i)).slots.talks.length = 8 from Node.talks_len (n := n) hinv]
    omega
  refine ⟨_, run, rfl, rfl, (n.releaseClaim _).talk_modTalk_self i _ hlt,
    fun j hj => (n.releaseClaim _).talk_modTalk_other i j _ hj.symm, List.filter_congr fun c _ => bne_eq_decide_ne _ _,
    fun k => ?_⟩
  have hentry := n.releaseClaim_entry (.talk i) k
  have hreg := n.releaseClaim_reg (.talk i) k
  cases hserves : (n.entry k).serves (.talk i) with
  | true =>
    rw [hserves] at hentry hreg
    exact ⟨hentry, fun hr => hreg.trans (if_pos ⟨hr, rfl⟩)⟩
  | false =>
    rw [hserves] at hentry hreg
    exact ⟨hentry, hreg.trans (if_neg (by simp))⟩

end Sys2Proof.Machine
end

section
/-! PROOF. The claim that times out, and the local slot table at a frame (O40). -/

namespace Sys2Proof.Machine

/-! ## A claim that fails (R34) -/

/-- A CLAIMING entry of the user becomes IDLE with a release owed; any other stays. -/
theorem SlotEntry.failFor_eq (u : User) (e : SlotEntry) : e.failFor u =
    if e.state = .claiming ∧ e.serves u = true then { state := .idle, claim := none, owed := 480 } else e := by
  simp [SlotEntry.failFor, SlotEntry.release]

/-- The part once a user's open claim has left the pending list and the slot table. -/
def Node.withoutClaim (n : Node) (u : User) : Node :=
  { n with slots := { n.slots with
      waiting := n.slots.waiting.filter fun c => c.user != u
      table := n.slots.table.map (SlotEntry.failFor u) } }

theorem Node.failClaim_tells (n : Node) (u : User) : n.failClaim u = (n.withoutClaim u).tell u .noSlot := rfl

theorem Node.withoutClaim_entry (n : Node) (u : User) (k : Nat) : (n.withoutClaim u).entry k = (n.entry k).failFor u :=
  List.getD_map (f := SlotEntry.failFor u) (d := .reset) n.slots.table

/-- CLAIM_TIMEOUT, when the next count brings the age of the user's open claim to 480. -/
theorem exec_claimTimeout {s : State} {u : User} {c : Claim} (hclaim : s.node.openClaim u = some c) (hage : 479 ≤ c.age) :
    exec (.claimTimeout u) s = .next { s with node := s.node.failClaim u } := by
  have due : s.node.claimDue u = true := by simp [Node.claimDue, hclaim]; omega
  exact onNode_due (due := fun n => n.claimDue u) (work := fun n => n.failClaim u) due

/-- A CLAIMING talk record whose claim fails closes, and its SEND is answered NO_SLOT (R39). -/
theorem Node.failClaim_talk {n : Node} {i : Nat} (h : (n.talk i).state = .claiming) : n.failClaim (.talk i) =
    ((n.withoutClaim (.talk i)).modTalk i fun t => { t with state := .closed, lastEnd := .noSlot, slot := none }).respond
      (n.talk i).requester 0x0C .noSlot [] :=
  (n.failClaim_tells _).trans (Node.talkOutcome_noSlot (n := n.withoutClaim (.talk i)) h)

/-- A CLAIMING call whose claim fails ends (R139). -/
theorem Node.failClaim_call {n : Node} {r : Nat} (h : (n.call r).state = .claiming) :
    n.failClaim (.call r) = (n.withoutClaim (.call r)).callEnd r .noSlot .here :=
  (n.failClaim_tells _).trans (if_pos h)

/-- A job whose claim fails ends (R156). -/
theorem Node.failClaim_player (n : Node) (p : Nat) :
    n.failClaim (.player p) = (n.withoutClaim (.player p)).jobEnd p .noSlot := rfl

/-! ## The job record of a job that ends (R158, R159) -/

/-- The finish of a job leaves it IDLE, ended for the reason it had. -/
theorem Node.jobFinish_job {n : Node} {p : Nat} (hp : p < n.players.players.length) :
    ((n.jobFinish p).player p).job = { (n.player p).job with
      state := .idle, lastEnd := some ((n.player p).job.endReason.getD .stopped), endReason := none, binding := none
      claim := .none, talk := none, timer := 0 } := by
  have stream : ∀ q : Player, (if q.voice.isSome then q else q.closeStream).job = q.job := by
    intro q
    split <;> rfl
  have told (m : Node) (why : JobEnd) : (m.playerDone p why).player p = m.player p :=
    congrArg (fun l : Players => l.players.getD p .reset) (m.playerDone_players p why)
  have length (m : Node) (why : JobEnd) : (m.playerDone p why).players.players.length = m.players.players.length := by
    rw [Node.playerDone_players]
  rw [Node.jobFinish, Node.modJob, Node.player_modPlayer_self]
  · dsimp only
    rw [told, n.player_modPlayer_self p _ hp, stream]
  · rw [length]
    simpa [Node.modPlayer] using hp

/-- The job of player `p` is in STOPPING for the reason. -/
def Node.jobStopping (n : Node) (p : Nat) (why : JobEnd) : Prop :=
  p < n.players.players.length ∧ (n.player p).job.state = .stopping ∧ (n.player p).job.endReason = some why

/-- An update of the player that puts its job in STOPPING. -/
theorem Node.jobStopping_modPlayer {n : Node} {p : Nat} {why : JobEnd} {f : Player → Player}
    (hp : p < n.players.players.length)
    (hf : (f (n.player p)).job.state = .stopping ∧ (f (n.player p)).job.endReason = some why) :
    (n.modPlayer p f).jobStopping p why := by
  refine ⟨?_, ?_⟩
  · simpa [Node.modPlayer] using hp
  · rwa [n.player_modPlayer_self p f hp]

/-- An operation that leaves the players alone leaves a job in STOPPING. -/
theorem Node.jobStopping_of_players {m n : Node} {p : Nat} {why : JobEnd} (h : n.jobStopping p why)
    (hm : m.players = n.players) : m.jobStopping p why := by
  unfold Node.jobStopping Node.player at *
  rwa [hm]

/-- A running job that ends is STOPPING with its reason, and finishes at once where it has no binding. -/
theorem Node.jobEnd_stops {n : Node} {p : Nat} (hp : p < n.players.players.length) (hrun : (n.player p).job.running = true)
    (why : JobEnd) : ∃ m : Node, n.jobEnd p why = (if (n.player p).job.binding.isNone then m.jobFinish p else m) ∧
      m.jobStopping p why := by
  rw [Node.jobEnd]
  dsimp only
  rw [if_pos hrun]
  generalize hpop : (n.modPlayer p _).popLayers (n.player p).job.binding (.player p) = popped
  have hstopping : popped.jobStopping p why := by
    rw [← hpop]
    refine Node.jobStopping_of_players (Node.jobStopping_modPlayer hp ?_) (Node.popLayers_players _ _ _)
    split <;> exact ⟨rfl, rfl⟩
  refine ⟨_, rfl, ?_⟩
  split
  · exact hstopping
  · obtain ⟨hlt, hjob⟩ := Node.jobStopping_of_players (m := popped.releaseClaim (.player p)) hstopping rfl
    exact Node.jobStopping_modPlayer hlt hjob

/-- A running job that ends has ended with its reason. -/
theorem Node.jobEnd_ends {n : Node} {p : Nat} (hp : p < n.players.players.length) (hrun : (n.player p).job.running = true)
    (why : JobEnd) : (n.jobEnd p why).jobEnded n p why = true := by
  obtain ⟨m, hm, hlt, hstate, hreason⟩ := Node.jobEnd_stops hp hrun why
  rw [hm, Node.jobEnded]
  cases hb : (n.player p).job.binding with
  | none => simp [Node.jobFinish_job hlt, hreason]
  | some id => simp [hstate, hreason]

/-! ## A table entry at a header (R33, R35, R36) -/

section Entry

variable {h : Headers} {w : SlotWork} {k : Nat} {c : Claim} {f : SlotField}

theorem SlotWork.entryStep_claiming (hs : (w.node.entry k).state = .claiming) (hc : (w.node.entry k).claim = some c) :
    w.entryStep h k = w.claiming k (headerOf h k) c := by
  simp only [SlotWork.entryStep, hs, hc]

theorem SlotWork.entryStep_held (hs : (w.node.entry k).state = .held) (hc : (w.node.entry k).claim = some c) :
    w.entryStep h k = w.held k (headerOf h k) c := by
  simp only [SlotWork.entryStep, hs, hc]

theorem SlotWork.entryStep_owing (hs : (w.node.entry k).state = .idle) (ho : (w.node.entry k).owed ≠ 0) :
    w.entryStep h k = w.owing k (headerOf h k) := by
  simp only [SlotWork.entryStep, hs, if_neg ho]

theorem SlotWork.claiming_unstamped (hs : f.stamped = false) : w.claiming k f c = w := by
  simp [SlotWork.claiming, hs]

theorem SlotWork.claiming_own (hs : f.stamped = true) (ho : f.ownerOf = w.node.address) : (w.claiming k f c).node =
    (w.node.modEntry k fun e => { e with state := .held }).tell c.user (.confirmed k) := by
  simp [SlotWork.claiming, hs, ho]

theorem SlotWork.claiming_free (hs : f.stamped = true) (ho : f.ownerOf ≠ w.node.address) (h0 : f.ownerOf = 0) :
    w.claiming k f c = w.write k (w.node.tentative c) := by
  rw [SlotWork.claiming, if_neg (by simp [hs]), if_neg ho, if_pos h0]

theorem SlotWork.claiming_other (hs : f.stamped = true) (ho : f.ownerOf ≠ w.node.address) (h0 : f.ownerOf ≠ 0) :
    w.claiming k f c = { w with node := w.node.slotLost k c } := by
  rw [SlotWork.claiming, if_neg (by simp [hs]), if_neg ho, if_neg h0]

theorem SlotWork.held_unstamped (hs : f.stamped = false) : w.held k f c = w := by simp [SlotWork.held, hs]

theorem SlotWork.writeOwned_held (hs : (w.node.entry k).state = .held) (hc : (w.node.entry k).claim = some c) :
    w.writeOwned k f = w.write k (f.owned (w.node.userSample c.user)) := by
  simp only [SlotWork.writeOwned, hs, hc]

theorem SlotWork.held_own (hs : f.stamped = true) (ho : f.ownerOf = w.node.address) :
    w.held k f c = w.writeOwned k f := by
  rw [SlotWork.held, if_neg (by simp [hs]), if_pos ho]

theorem SlotWork.held_other (hs : f.stamped = true) (ho : f.ownerOf ≠ w.node.address) : w.held k f c =
    { w with node := (w.node.modEntry k fun e => { e with state := .idle, claim := none }).tell c.user .lost } := by
  rw [SlotWork.held, if_neg (by simp [hs]), if_neg ho]

theorem SlotWork.owing_waits (hf : f.stamped = false ∨ f.ownerOf = 0) : w.owing k f = w := by
  rw [SlotWork.owing, if_pos (by simpa using hf)]

theorem SlotWork.owing_own (hs : f.stamped = true) (h0 : f.ownerOf ≠ 0) (ho : f.ownerOf = w.node.address) :
    w.owing k f = { w with node := w.node.clearOwed k }.write k .empty := by
  rw [SlotWork.owing, if_neg (by simp [hs, h0]), if_pos ho]

theorem SlotWork.owing_other (hs : f.stamped = true) (h0 : f.ownerOf ≠ 0) (ho : f.ownerOf ≠ w.node.address) :
    w.owing k f = { w with node := w.node.clearOwed k } := by
  rw [SlotWork.owing, if_neg (by simp [hs, h0]), if_neg ho]

end Entry

/-- A claim that loses its third slot fails (R33, log 34). -/
theorem Node.slotLost_third {c : Claim} (h : 2 ≤ c.attempts) (n : Node) (k : Nat) : n.slotLost k c =
    (n.modEntry k fun e => { e with state := .idle, claim := none }).tell c.user .noSlot := if_pos (by omega)

/-- A claim that loses its first or second slot waits again in its old place (R33). -/
theorem Node.slotLost_again {c : Claim} (h : c.attempts < 2) (n : Node) (k : Nat) : n.slotLost k c =
    (n.modEntry k fun e => { e with state := .idle, claim := none }).setWaiting
      (insertByOrder { c with attempts := c.attempts + 1 } n.slots.waiting) := if_neg (by omega)

/-! ## A pending claim at a frame (R32) -/

theorem SlotWork.search_none {h : Headers} {w : SlotWork} {c : Claim} (hf : (poolOrder c.cls).find? (w.node.canTake h) = none) :
    w.search h c = w := by
  simp only [SlotWork.search, hf]

theorem SlotWork.search_some {h : Headers} {w : SlotWork} {c : Claim} {k : Nat}
    (hf : (poolOrder c.cls).find? (w.node.canTake h) = some k) : w.search h c =
      { node := (w.node.setWaiting (w.node.slots.waiting.filter fun d => d.user != c.user)).modEntry k
          fun e => { e with state := .claiming, claim := some c }
        sent := w.sent.set k (w.node.tentative c) } := by
  simp only [SlotWork.search, hf]
  rfl

/-- Settles O40: the user of a claim that times out is told; then the case of each header that a table entry can read, and of
the search of a pending claim. -/
theorem claimTimeoutTellsTheUser : Obligations.ClaimTimeoutTellsTheUser := by
  refine ⟨fun c s hinv hage => ⟨fun i hi hclaim hstate => ?_, fun r hr hclaim hstate => ?_, fun p hp hclaim hrun => ?_⟩,
    fun h w k c => ⟨fun hs hc => ?_, fun hs hc => ?_, fun hs ho => ?_⟩,
    fun h w c => ⟨SlotWork.search_none, fun k => SlotWork.search_some⟩⟩
  · have hlt : i < (s.node.withoutClaim (.talk i)).slots.talks.length := by
      rw [show (s.node.withoutClaim (.talk i)).slots.talks.length = 8 from Node.talks_len (n := s.node) hinv]
      omega
    refine ⟨_, exec_claimTimeout hclaim hage, ?_⟩
    rw [Node.failClaim_talk hstate]
    refine ⟨rfl, (s.node.withoutClaim _).talk_modTalk_self i _ hlt, List.filter_congr fun d _ => bne_eq_decide_ne _ _,
      fun k => ?_, rfl⟩
    exact (s.node.withoutClaim_entry _ k).trans (SlotEntry.failFor_eq _ _)
  · have hlt : r < (s.node.withoutClaim (.call r)).calls.records.length := by
      rw [show (s.node.withoutClaim (.call r)).calls.records.length = 8 from Node.records_len (n := s.node) hinv]
      omega
    have live : ((s.node.withoutClaim (.call r)).call r).state ≠ .idle := by
      rw [show ((s.node.withoutClaim (.call r)).call r).state = .claiming from hstate]
      decide
    exact ⟨_, exec_claimTimeout hclaim hage, Node.failClaim_call hstate ▸ Node.callEnd_ends hlt live .noSlot .here⟩
  · have hlt : p < (s.node.withoutClaim (.player p)).players.players.length := by
      rw [show (s.node.withoutClaim (.player p)).players.players.length = 2 from Node.players_len (n := s.node) hinv]
      omega
    exact ⟨_, exec_claimTimeout hclaim hage, Node.jobEnd_ends (n := s.node.withoutClaim (.player p)) hlt hrun .noSlot⟩
  · rw [SlotWork.entryStep_claiming hs hc]
    refine ⟨SlotWork.claiming_unstamped, SlotWork.claiming_own, SlotWork.claiming_free, fun hst ho h0 => ?_⟩
    rw [SlotWork.claiming_other hst ho h0]
    exact ⟨fun h2 => by rw [Node.slotLost_third h2], fun h2 => by rw [Node.slotLost_again h2]⟩
  · rw [SlotWork.entryStep_held hs hc]
    refine ⟨SlotWork.held_unstamped, fun hst ho => ?_, SlotWork.held_other⟩
    exact (SlotWork.held_own hst ho).trans (SlotWork.writeOwned_held hs hc)
  · rw [SlotWork.entryStep_owing hs ho]
    exact ⟨SlotWork.owing_waits, fun hst h0 hown => SlotWork.owing_own hst h0 hown,
      fun hst h0 hother => SlotWork.owing_other hst h0 hother⟩

end Sys2Proof.Machine
end

section
/-! PROOF. Zone records: WRITE ZONE (O14), SET VOLUME (O15), and the zones that a selector matches (O58). -/

namespace Sys2Proof.Machine

/-! ## WRITE ZONE (R45) -/

/-- A write of a zone record writes its settings alike. -/
theorem Zone.settings_written (r : Zone) (logical : Nat) (f : FireZone) (k : ZoneKind) (floor : Int) :
    (r.written logical f k floor).settings = r.settings.written logical f k floor := rfl

/-- The settings of the zone records after a write of one record. -/
theorem map_settings_written (l : List Zone) (z logical : Nat) (f : FireZone) (k : ZoneKind) (floor : Int) :
    (l.modify z fun r => r.written logical f k floor).map Zone.settings =
      (l.map Zone.settings).modify z fun r => r.written logical f k floor := by
  induction l generalizing z with
  | nil => cases z <;> rfl
  | cons r l ih =>
    cases z with
    | zero => rfl
    | succ z => simp [ih]

/-- A zone record written changes the settings of its zone alone, whatever the Alarm Engine then does (R45, R104). -/
theorem Node.zoneWritten_kept (n : Node) (z logical : Nat) (f : FireZone) (k : ZoneKind) (floor : Int) :
    (n.zoneWritten z logical f k floor).kept = { n.kept with
      zones := n.kept.zones.modify z fun r => r.written logical f k floor } := by
  have written : (n.modZone z fun r => r.written logical f k floor).kept = { n.kept with
      zones := n.kept.zones.modify z fun r => r.written logical f k floor } := by
    simp only [Node.kept, Node.lengths, Node.modZone, List.length_modify, map_settings_written]
  unfold Node.zoneWritten
  dsimp only
  split
  · exact written
  · rw [Node.alarmEvent_kept, written]

/-- WRITE ZONE with its fields in range writes the record and answers with it. -/
theorem Node.writeZone_inRange {z logical fire kind : Nat} {f : FireZone} {k : ZoneKind} (hz : z ≤ 15) (hl : logical ≤ 4095)
    (hf : FireZone.ofCode fire = some f) (hk : ZoneKind.ofCode kind = some k) (n : Node) (who : Req) (floor : Int) :
    n.writeZone who z logical fire kind floor = (n.zoneWritten z logical f k floor).respond who 0x10 .ok
      ((n.zoneWritten z logical f k floor).zone z).configBytes := by
  rw [Node.writeZone, if_neg (by omega), if_neg (by omega), hf, hk]

/-- Settles O14: the record is written and an alarm event writes no setting; the answer is the last packet enqueued. -/
theorem writeZoneReplacesTheRecord : Obligations.WriteZoneReplacesTheRecord := by
  intro who z logical fire kind floor f k s hready hz hl hf hk
  have hkept := s.node.reserve.zoneWritten_kept z logical f k floor
  have run := onNode_taken hready fun m => m.writeZone who z logical fire kind floor
  rw [Node.writeZone_inRange hz hl hf hk] at run
  generalize s.node.reserve.zoneWritten z logical f k floor = written at hkept run
  have haddress : written.mgmt.address = s.node.mgmt.address := congrArg Kept.address hkept
  refine ⟨_, run, hkept, ?_⟩
  rw [Node.answer, ← haddress]
  exact List.getLast?_concat

/-! ## SET VOLUME (R46) -/

theorem Node.setVolume_found {logical : Nat} (h1 : 1 ≤ logical) (h2 : logical ≤ 4095) {n : Node}
    (hits : 0 < (n.mixer.zones.filter fun r => r.logical = logical).length) (who : Req) (level : Int) :
    n.setVolume who logical level =
      { n with mixer := { n.mixer with
          zones := n.mixer.zones.map (Zone.retargetVolume logical (clampInt (-384) 0 level)) } }.respond who 0x11 .ok
        (levelBytes (clampInt (-384) 0 level) ++ [byte (n.mixer.zones.filter fun r : Zone => r.logical = logical).length]) := by
  rw [Node.setVolume, if_neg (by omega), if_neg (by omega)]

theorem Node.setVolume_notFound {logical : Nat} (h1 : 1 ≤ logical) (h2 : logical ≤ 4095) {n : Node}
    (hits : (n.mixer.zones.filter fun r => r.logical = logical).length = 0) (who : Req) (level : Int) :
    n.setVolume who logical level = n.respond who 0x11 .notFound [] := by
  rw [Node.setVolume, if_neg (by omega), if_pos hits]

/-- Settles O15: the two cases of R46 for a number in range. -/
theorem setVolumeRetargetsZones : Obligations.SetVolumeRetargetsZones := by
  intro who logical level s hready h1 h2 n l hits
  have run := onNode_taken hready fun m => m.setVolume who logical level
  refine ⟨fun hfound => ?_, fun hnone => ?_⟩
  · rw [Node.setVolume_found (n := s.node.reserve) h1 h2 hfound] at run
    exact run
  · rw [Node.setVolume_notFound (n := s.node.reserve) h1 h2 hnone, Node.reserve_respond] at run
    exact run

/-! ## Selectors (R48) -/

/-- A fire zone is among those of a selector's mask: its bit is set, or it is ALL and some bit is set (R48). -/
def FireZone.isIn (f : FireZone) (fires : Mask16) : Prop :=
  (∃ i, f = .one i ∧ fires.getLsbD i = true) ∨ (f = .all ∧ fires ≠ 0)

/-- A zone kind has one of the six bits of a kind mask. -/
theorem ZoneKind.code_lt (k : ZoneKind) : k.code < 6 := by cases k <;> decide

/-- The reserved bits of a kind mask's byte play no part. -/
theorem getLsbD_kindMaskOf (kinds : Byte) (k : ZoneKind) : (kindMaskOf kinds).getLsbD k.code = kinds.getLsbD k.code := by
  simp [kindMaskOf, k.code_lt]

/-- A zone record matches a selector by its fire zone and its kind. -/
theorem Zone.hitBy_selector_iff (r : Zone) (fires : Mask16) (kinds : Byte) : r.hitBy (.selector fires kinds) = true ↔
    r.fireZone.isIn fires ∧ kinds.getLsbD r.kind.code = true := by
  rw [Zone.hitBy, Bool.and_eq_true, getLsbD_kindMaskOf]
  cases hf : r.fireZone with
  | one f => simp [FireZone.isIn]
  | all => simp [FireZone.isIn]

/-- No fire zone is in an empty mask. -/
theorem FireZone.not_isIn_zero (f : FireZone) : ¬f.isIn 0 := by simp [FireZone.isIn]

/-- The full fire-zone mask has every fire zone. -/
theorem FireZone.isIn_full {f : FireZone} (h : ∀ i, f = .one i → i ≤ 15) : f.isIn 0xFFFF := by
  cases f with
  | all => exact .inr ⟨rfl, by decide⟩
  | one i =>
    have bits : ∀ i : Fin 16, (0xFFFF : Mask16).getLsbD i = true := by decide
    exact .inl ⟨i, rfl, bits ⟨i, by have := h i rfl; omega⟩⟩

/-- The full kind mask has every kind. -/
theorem ZoneKind.in_full (k : ZoneKind) : (0x3F : Byte).getLsbD k.code = true := by cases k <;> decide

/-- Settles O58: each clause is the matching rule at its mask. -/
theorem selectorsMatchZones : Obligations.SelectorsMatchZones := by
  intro r fires kinds
  refine ⟨r.hitBy_selector_iff fires kinds, ?_, rfl, ?_, fun hfire => ?_, fun logical => rfl⟩
  · exact Bool.eq_false_iff.2 fun hit => r.fireZone.not_isIn_zero ((r.hitBy_selector_iff 0 kinds).1 hit).1
  · refine Bool.eq_false_iff.2 fun hit => ?_
    have bit := ((r.hitBy_selector_iff fires 0).1 hit).2
    simp at bit
  · exact (r.hitBy_selector_iff _ _).2 ⟨FireZone.isIn_full hfire, r.kind.in_full⟩

end Sys2Proof.Machine
end

section
/-! PROOF. The pops of a binding's layers: UNBIND and AUTO_END (O22). -/

namespace Sys2Proof.Machine

/-! ## Bindings and stacks after an update -/

/-- A binding after an update of one entry of the table: a FREE id stays FREE. -/
theorem Node.binding_modBinding (n : Node) (id j : Nat) (f : Binding → Binding) :
    (n.modBinding id f).binding j = if j = id then (n.binding id).map f else n.binding j := by
  split
  · next h =>
    subst h
    simp only [Node.binding, Node.modBinding_mixer, List.getD_eq_getElem?_getD, List.getElem?_modify_eq]
    cases n.mixer.bindings[j]? <;> rfl
  · next h => exact getD_modify_other _ _ _ (Ne.symm h)

theorem Node.stack_setStack_self {n : Node} {z : Nat} (hz : z < n.mixer.zones.length) (st : List Layer) :
    (n.setStack z st).stack z = st := congrArg Zone.stack (n.zone_modZone_self z _ hz)

/-- A stack rewritten as a function of itself reads as that function of it, also past the last zone record. -/
theorem Node.stack_setStack_map (n : Node) (z : Nat) {f : List Layer → List Layer} (hf : f [] = []) :
    (n.setStack z (f (n.stack z))).stack z = f (n.stack z) := by
  by_cases hz : z < n.mixer.zones.length
  · exact Node.stack_setStack_self hz _
  · have empty : n.stack z = [] := by
      rw [Node.stack, Node.zone, List.getD_eq_default _ _ (Nat.le_of_not_lt hz)]
      rfl
    rw [Node.stack, Node.zone, List.getD_eq_default _ _ (by simpa using hz), empty, hf]
    rfl

theorem Node.stack_setStack_other (n : Node) {z y : Nat} (st : List Layer) (h : z ≠ y) :
    (n.setStack z st).stack y = n.stack y := congrArg Zone.stack (n.zone_modZone_other z y _ h)

/-! ## What a pop and the state rule keep of a stack (R72, R74, R76) -/

/-- What the state rule and the duck targets never change of a layer: its binding, and whether it is releasing. -/
def Layer.standing (l : Layer) : Nat × Bool := (l.binding, l.live)

theorem Layer.become_standing {l : Layer} {st : LayerState} (hl : l.live = true) (hst : st ≠ .releasing) :
    (l.become st).standing = l.standing := by
  rw [Layer.become]
  split
  · rfl
  · simp [Layer.standing, Layer.live] at hl ⊢
    simp [hst, hl]

theorem applyStates_standing (rule : Nat → EqualRule) (seen : List Nat) (st : List Layer) :
    (applyStates rule seen st).map Layer.standing = st.map Layer.standing := by
  induction st generalizing seen with
  | nil => rfl
  | cons l rest ih =>
    rw [applyStates]
    split
    · next hl =>
      have active := Layer.become_standing (st := .active) hl (by decide)
      have held := Layer.become_standing (st := .held) hl (by decide)
      split
      · rw [List.map_cons, ih, active, List.map_cons]
      · split
        · rw [List.map_cons, ih, held, List.map_cons]
        · rw [List.map_cons, ih, active, List.map_cons]
    · rw [List.map_cons, ih, List.map_cons]

theorem settleStack_standing (classes : Nat → ClassRecord) (st : List Layer) :
    (settleStack classes st).map Layer.standing = st.map Layer.standing := by
  rw [settleStack, retarget, List.map_map]
  exact applyStates_standing _ _ _

/-- The standing of a layer once binding `id` is popped. -/
def popStanding (id : Nat) (x : Nat × Bool) : Nat × Bool := (x.1, x.2 && x.1 != id)

theorem popStanding_idem (id : Nat) (x : Nat × Bool) : popStanding id (popStanding id x) = popStanding id x := by
  simp [popStanding]

/-- A pop makes the layer of its binding releasing. -/
theorem Layer.pop_standing (id : Nat) (l : Layer) :
    (if l.binding = id then l.pop else l).standing = popStanding id l.standing := by
  split
  · next h =>
    rw [Layer.pop]
    split
    · simp [Layer.standing, popStanding, Layer.live, h]
    · next hl => simp [Layer.standing, popStanding, hl]
  · next h => simp [Layer.standing, popStanding, h]

/-- A pop leaves a stack alone in which the binding has no layer but releasing ones. -/
theorem map_pop_of_none {st : List Layer} {id : Nat} (h : ¬(st.any fun l => l.binding = id && l.live) = true) :
    (st.map fun l => if l.binding = id then l.pop else l) = st := by
  simp only [List.any_eq_true, Bool.and_eq_true, decide_eq_true_eq, not_exists, not_and] at h
  refine (List.map_congr_left fun l hl => ?_).trans (List.map_id st)
  split
  · next hid => exact if_neg (h l hl hid)
  · rfl

/-- A pop in a zone pops the binding's layer there, and changes no other stack. -/
theorem Node.popZone_standing (n : Node) (z id y : Nat) : ((n.popZone z id).stack y).map Layer.standing =
    if y = z then ((n.stack z).map Layer.standing).map (popStanding id) else (n.stack y).map Layer.standing := by
  have popped : ((n.stack z).map fun l => if l.binding = id then l.pop else l).map Layer.standing =
      ((n.stack z).map Layer.standing).map (popStanding id) := by
    rw [List.map_map, List.map_map]
    exact List.map_congr_left fun l _ => Layer.pop_standing id l
  rw [Node.popZone]
  by_cases hy : y = z
  · subst hy
    rw [if_pos rfl]
    split
    · rw [Node.settle, Node.stack_setStack_map _ y (f := settleStack _) rfl, settleStack_standing,
        n.stack_setStack_map y (f := List.map _) rfl, popped]
    · next hnone => rw [← popped, map_pop_of_none hnone]
  · rw [if_neg hy]
    split
    · rw [Node.settle, Node.stack_setStack_other _ _ (Ne.symm hy), Node.stack_setStack_other _ _ (Ne.symm hy)]
    · rfl

/-! ## All layers of a binding popped (R55, R56) -/

/-- Pops write stacks alone. -/
theorem Node.popAll_zones (n : Node) (id : Nat) :
    ∃ zones : List Zone, n.popAll id = { n with mixer := { n.mixer with zones := zones } } := by
  unfold Node.popAll
  induction zoneIndices generalizing n with
  | nil => exact ⟨n.mixer.zones, rfl⟩
  | cons z rest ih =>
    have zone : ∃ zones : List Zone, n.popZone z id = { n with mixer := { n.mixer with zones := zones } } := by
      unfold Node.popZone
      split
      · exact ⟨_, rfl⟩
      · exact ⟨n.mixer.zones, rfl⟩
    obtain ⟨first, hfirst⟩ := zone
    obtain ⟨others, hothers⟩ := ih (n.popZone z id)
    exact ⟨others, by rw [List.foldl_cons, hothers, hfirst]⟩

/-- After the pops in a set of zones the binding has no layer there but releasing ones. -/
theorem foldl_popZone_standing (zones : List Nat) (n : Node) (id y : Nat) :
    ((zones.foldl (fun n z => n.popZone z id) n).stack y).map Layer.standing =
      if y ∈ zones then ((n.stack y).map Layer.standing).map (popStanding id) else (n.stack y).map Layer.standing := by
  induction zones generalizing n with
  | nil => rfl
  | cons z zones ih =>
    rw [List.foldl_cons, ih, Node.popZone_standing]
    by_cases hz : y = z
    · subst hz
      simp [popStanding_idem]
    · simp [hz]

/-- Every layer of a binding is releasing once they are all popped, and every layer keeps its place. -/
theorem Node.popAll_pops {n : Node} (hlen : n.mixer.zones.length = 16) (id z : Nat) :
    ((n.popAll id).stack z).map (·.binding) = (n.stack z).map (·.binding) ∧
      ∀ l ∈ (n.popAll id).stack z, l.binding = id → l.state = .releasing := by
  have standing : ((n.popAll id).stack z).map Layer.standing = ((n.stack z).map Layer.standing).map (popStanding id) := by
    rw [Node.popAll, foldl_popZone_standing]
    split
    · rfl
    · next hz =>
      have outside : 16 ≤ z := by simpa [zoneIndices] using hz
      rw [Node.stack, Node.zone, List.getD_eq_default _ _ (by omega)]
      rfl
  constructor
  · have places := congrArg (List.map Prod.fst) standing
    simpa [List.map_map, Function.comp_def, Layer.standing, popStanding] using places
  · intro l hl hid
    have mem : l.standing ∈ ((n.stack z).map Layer.standing).map (popStanding id) := standing ▸ List.mem_map_of_mem hl
    obtain ⟨x, -, hx⟩ := List.mem_map.1 mem
    have dead : l.live = false := by
      have hfst : x.1 = l.binding := congrArg Prod.fst hx
      have hsnd : (x.2 && x.1 != id) = l.live := congrArg Prod.snd hx
      rw [← hsnd, hfst, hid]
      simp
    simpa [Layer.live] using dead

/-- Binding `id` of `n` has become `b` in `m` with each of its layers popped; other bindings and the places of layers stay. -/
def Node.endedAs (n m : Node) (id : Nat) (b : Binding) : Prop :=
  m.binding id = some b ∧ (∀ j, j ≠ id → m.binding j = n.binding j) ∧
    ∀ z, (m.stack z).map (·.binding) = (n.stack z).map (·.binding) ∧ ∀ l ∈ m.stack z, l.binding = id → l.state = .releasing

/-- An end begun on a binding that no end has reached sets its ending field and pops its layers. -/
theorem Node.beginEnd_popAll {n : Node} (hlen : n.mixer.zones.length = 16) {id : Nat} {b : Binding} (hb : n.binding id = some b)
    (hend : b.ending = .none) (why : Ending) :
    n.endedAs ((n.beginEnd id why).popAll id) id { b with ending := why } := by
  have places := Node.popAll_pops (n := n.beginEnd id why) hlen id
  obtain ⟨zones, hpop⟩ := (n.beginEnd id why).popAll_zones id
  rw [hpop] at places ⊢
  have bindings (j : Nat) := n.binding_modBinding id j fun b => if b.ending = .none then { b with ending := why } else b
  refine ⟨(bindings id).trans ?_, fun j hj => (bindings j).trans (if_neg hj), places⟩
  rw [if_pos rfl, hb, Option.map_some, if_pos hend]

/-! ## UNBIND and AUTO_END -/

theorem Node.unbindId_begins {n : Node} {id : Nat} {b : Binding} (hid : id ≤ 63) (hb : n.binding id = some b)
    (hremote : b.isRemote = true) (hend : b.ending = .none) (who : Req) : n.unbindId who id =
      ((n.beginEnd id .unbound).popAll id).respond who 0x14 .ok ([byte id] ++ bytesOf 2 b.zones.toNat) := by
  rw [Node.unbindId, if_neg (by omega), hb]
  simp only [hremote, hend, Bool.not_true, Bool.false_eq_true, if_true, if_false]

theorem exec_autoEnd {s : State} {id : Nat} (h : s.node.autoEndDue id = true) : exec (.autoEnd id) s = .next { s with
    node := (s.node.modBinding id fun b => { b with freeRun := b.freeRun + 1 }).autoEndNow id } :=
  onNode_due (due := fun n => n.autoEndDue id)
    (work := fun n => (n.modBinding id fun b => { b with freeRun := b.freeRun + 1 }).autoEndNow id) h

/-- Settles O22: both rows begin an end on a binding that no end has reached, and the pops write stacks alone. -/
theorem endingPopsTheLayers : Obligations.EndingPopsTheLayers := by
  intro id b s hinv hb hend n popped
  have hlen : n.mixer.zones.length = 16 := Node.zones_len hinv
  refine ⟨fun who hready hid hremote => ?_, fun hdue => ?_⟩
  · have run := onNode_taken hready fun m => m.unbindId who id
    rw [Node.unbindId_begins (n := s.node.reserve) hid hb hremote hend] at run
    have ended := Node.beginEnd_popAll (n := n.reserve) hlen hb hend .unbound
    obtain ⟨zones, hpop⟩ := (n.reserve.beginEnd id .unbound).popAll_zones id
    rw [hpop] at run ended
    exact ⟨_, run, rfl, ended, rfl⟩
  · have counted : (n.modBinding id fun b => { b with freeRun := b.freeRun + 1 }).binding id =
        some { b with freeRun := b.freeRun + 1 } := by
      rw [Node.binding_modBinding, if_pos rfl, hb]
      rfl
    have ended := Node.beginEnd_popAll (n := n.modBinding id _) hlen counted hend .autoEnd
    have run := exec_autoEnd hdue
    rw [Node.autoEndNow] at run
    obtain ⟨zones, hpop⟩ := ((n.modBinding id fun b => { b with freeRun := b.freeRun + 1 }).beginEnd id .autoEnd).popAll_zones id
    rw [hpop] at run ended
    obtain ⟨hthis, hothers, hstacks⟩ := ended
    exact ⟨_, run, rfl, hthis, fun j hj => (hothers j hj).trans ((n.binding_modBinding id j _).trans (if_neg hj)), hstacks⟩

end Sys2Proof.Machine
end

section
/-! PROOF. Admissions of a BIND: room in a full stack, the place of a new layer, and the outcome of a BIND in one zone (O21). -/

namespace Sys2Proof.Machine

/-! ## The place of a new layer (R68) -/

/-- In a stack in the order of classes a new layer stands below its own class and above every lower one. -/
theorem insertLayer_place (l : Layer) {st : List Layer} (h : st.Pairwise fun a b => b.cls ≤ a.cls) :
    ∃ above below, st = above ++ below ∧ insertLayer l st = above ++ l :: below ∧
      (∀ x ∈ above, l.cls ≤ x.cls) ∧ ∀ x ∈ below, x.cls < l.cls := by
  refine ⟨_, _, List.takeWhile_append_dropWhile.symm, rfl, fun x hx => ?_, fun x hx => ?_⟩
  · simpa using List.mem_takeWhile_imp hx
  · have sorted : (st.dropWhile fun x => l.cls ≤ x.cls).Pairwise fun a b => b.cls ≤ a.cls :=
      h.sublist (List.dropWhile_sublist _)
    have first := List.head?_dropWhile_not (fun x : Layer => decide (l.cls ≤ x.cls)) st
    cases hd : st.dropWhile fun x => l.cls ≤ x.cls with
    | nil => simp [hd] at hx
    | cons y ys =>
      rw [hd] at hx sorted first
      have hy : y.cls < l.cls := by simpa using first
      rcases List.mem_cons.1 hx with rfl | hmem
      · exact hy
      · exact Nat.lt_of_le_of_lt (List.rel_of_pairwise_cons sorted hmem) hy

/-! ## Room in a stack (R70) -/

theorem Layer.live_eq_false_iff (l : Layer) : l.live = false ↔ l.state = .releasing := by simp [Layer.live]

theorem Layer.live_iff (l : Layer) : l.live = true ↔ l.state ≠ .releasing := by simp [Layer.live]

theorem isAlarmId_iff (id : Nat) : isAlarmId id = true ↔ id = 62 ∨ id = 63 := by simp [isAlarmId]

theorem Node.makeRoom_spare {n : Node} {z : Nat} (h : (n.stack z).length < 6) (c : Nat) (alarm : Bool) :
    n.makeRoom z c alarm = some n := if_pos h

theorem Node.cutLowest_none {n : Node} {z : Nat} (h : ∀ l ∈ n.stack z, l.state ≠ .releasing) : n.cutLowest z = none := by
  have nothing : (n.stack z).reverse.find? (fun l => !l.live) = none :=
    List.find?_eq_none.2 fun l hl => by simpa [Layer.live] using h l (List.mem_reverse.1 hl)
  rw [Node.cutLowest, nothing, Option.map_none]

theorem Node.cutLowest_some {n : Node} {z : Nat} {top below : List Layer} {l : Layer} (hst : n.stack z = top ++ l :: below)
    (hl : l.state = .releasing) (hbelow : ∀ x ∈ below, x.state ≠ .releasing) :
    n.cutLowest z = some (n.removeLayer z l.binding) := by
  have lowest : (n.stack z).reverse.find? (fun l => !l.live) = some l := by
    have above : below.reverse.find? (fun l => !l.live) = none :=
      List.find?_eq_none.2 fun x hx => by simpa [Layer.live] using hbelow x (List.mem_reverse.1 hx)
    rw [hst, List.reverse_append, List.reverse_cons, List.find?_append, List.find?_append, above]
    simp [Layer.live, hl]
  rw [Node.cutLowest, lowest, Option.map_some]

section FullStack

variable {n : Node} {z : Nat} {above : List Layer} {bottom : Layer}

/-- How a full stack makes room, by its bottom layer. -/
theorem Node.makeRoom_full (hst : n.stack z = above ++ [bottom]) (hfull : 5 ≤ above.length) (c : Nat) (alarm : Bool) :
    n.makeRoom z c alarm =
      if !bottom.live then some (n.removeLayer z bottom.binding)
      else if bottom.cls < c then
        if isAlarmId bottom.binding then n.cutLowest z else some (n.evictLayer z bottom.binding)
      else if alarm then n.cutLowest z
      else none := by
  have hlen : ¬(n.stack z).length < 6 := by
    rw [hst, List.length_append, List.length_singleton]
    omega
  have hlast : (n.stack z).getLast? = some bottom := by rw [hst, List.getLast?_concat]
  rw [Node.makeRoom, if_neg hlen, hlast]

/-- A releasing bottom layer is cut. -/
theorem Node.makeRoom_cut (hst : n.stack z = above ++ [bottom]) (hfull : 5 ≤ above.length) (hb : bottom.state = .releasing)
    (c : Nat) (alarm : Bool) : n.makeRoom z c alarm = some (n.removeLayer z bottom.binding) := by
  rw [Node.makeRoom_full hst hfull, bottom.live_eq_false_iff.2 hb]
  rfl

/-- A bottom layer of a lower class is evicted, but for an alarm channel's. -/
theorem Node.makeRoom_evict (hst : n.stack z = above ++ [bottom]) (hfull : 5 ≤ above.length) (hb : bottom.state ≠ .releasing)
    {c : Nat} (hc : bottom.cls < c) (h62 : bottom.binding ≠ 62) (h63 : bottom.binding ≠ 63) (alarm : Bool) :
    n.makeRoom z c alarm = some (n.evictLayer z bottom.binding) := by
  have hid : ¬isAlarmId bottom.binding = true := fun h => ((isAlarmId_iff _).1 h).elim h62 h63
  rw [Node.makeRoom_full hst hfull, bottom.live_iff.2 hb, if_neg (by decide), if_pos hc, if_neg hid]

/-- An alarm channel's bottom layer stays: the lowest releasing layer is cut in its place. -/
theorem Node.makeRoom_alarm (hst : n.stack z = above ++ [bottom]) (hfull : 5 ≤ above.length) (hb : bottom.state ≠ .releasing)
    {c : Nat} (hc : bottom.cls < c) (hid : bottom.binding = 62 ∨ bottom.binding = 63) (alarm : Bool) :
    n.makeRoom z c alarm = n.cutLowest z := by
  rw [Node.makeRoom_full hst hfull, bottom.live_iff.2 hb, if_neg (by decide), if_pos hc, if_pos ((isAlarmId_iff _).2 hid)]

/-- Nothing makes way for a class that is not above the bottom layer's. -/
theorem Node.makeRoom_none (hst : n.stack z = above ++ [bottom]) (hfull : 5 ≤ above.length) (hb : bottom.state ≠ .releasing)
    {c : Nat} (hc : c ≤ bottom.cls) : n.makeRoom z c false = none := by
  rw [Node.makeRoom_full hst hfull, bottom.live_iff.2 hb, if_neg (by decide), if_neg (by omega), if_neg (by decide)]

end FullStack

/-! ## One admission (R69, R71) -/

section Admission

variable {n : Node} {z : Nat} {b : Binding}

theorem Node.tryAdmit_kind (hk : n.kindAdmits z b.cls = false) (id : Option Nat) (alarm : Bool) :
    n.tryAdmit z b id alarm = ⟨n, id, .refusedKind⟩ := by
  rw [Node.tryAdmit, hk]
  rfl

theorem Node.tryAdmit_limit (hk : n.kindAdmits z b.cls = true) (hl : n.limitAdmits z b.cls = false) (id : Option Nat)
    (alarm : Bool) : n.tryAdmit z b id alarm = ⟨n, id, .refusedFull⟩ := by
  rw [Node.tryAdmit, hk, hl]
  rfl

theorem Node.tryAdmit_noRoom (hk : n.kindAdmits z b.cls = true) (hl : n.limitAdmits z b.cls = true) {alarm : Bool}
    (hroom : n.makeRoom z b.cls alarm = none) (id : Option Nat) : n.tryAdmit z b id alarm = ⟨n, id, .refusedFull⟩ := by
  rw [Node.tryAdmit, hk, hl, hroom]
  rfl

/-- An admission that finds room takes the lowest FREE id for a binding that has none. -/
theorem Node.tryAdmit_new (hk : n.kindAdmits z b.cls = true) (hl : n.limitAdmits z b.cls = true) {alarm : Bool} {m : Node}
    (hroom : n.makeRoom z b.cls alarm = some m) {id : Nat} (hfree : m.lowestFree = some id) :
    n.tryAdmit z b none alarm = ⟨(m.joinZone z id b).insertInto z id b.cls, some id,
      ((m.joinZone z id b).insertInto z id b.cls).layerAnswer z id⟩ := by
  rw [Node.tryAdmit, hk, hl, hroom]
  simp only [Bool.not_true, Bool.false_eq_true, if_false, hfree]
  rfl

end Admission

/-- The limit check counts the layers of the class that are not releasing (R69). -/
theorem liveCount_eq (st : List Layer) (c : Nat) :
    liveCount st c = (st.filter fun l => l.state ≠ .releasing ∧ l.cls = c).length := by
  rw [liveCount]
  exact congrArg _ (List.filter_congr fun l _ => by simp [Layer.live])

/-- A binding of a source other than the call tone, at a FREE id, is created with its first zone. -/
theorem Node.joinZone_new {n : Node} {id : Nat} {b : Binding} (hfree : n.binding id = none) (hs : b.source ≠ .callTone)
    (z : Nat) : n.joinZone z id b = n.setBinding id (some { b with zones := BitVec.twoPow 16 z }) := by
  rw [Node.joinZone, hfree]
  simp only [hs, false_and, if_false]

/-! ## A layer alone in its stack -/

/-- A layer admitted to an empty stack: ACTIVE at the bottom of its fade, with nothing above to duck it. -/
def loneLayer (id c : Nat) : Layer := { newLayer id c with state := .active }

/-- Alone in its stack a new layer becomes ACTIVE under either equal rule. -/
theorem settleStack_lone (classes : Nat → ClassRecord) (id c : Nat) : settleStack classes [newLayer id c] = [loneLayer id c] := by
  have active : applyStates (fun c => (classes c).equal) [] [newLayer id c] = [loneLayer id c] := by
    rw [applyStates, if_pos (show (newLayer id c).live = true from rfl)]
    cases (classes (newLayer id c).cls).equal <;> rfl
  rw [settleStack, active, retarget, List.map_singleton]
  simp [duckTarget, loneLayer, newLayer]

theorem layerOf_lone (id c : Nat) : layerOf [loneLayer id c] id = some (loneLayer id c) := by
  simp [layerOf, loneLayer, newLayer]

/-- The later of two stacks written to a zone stands. -/
theorem Node.setStack_setStack (n : Node) (z : Nat) (st st' : List Layer) : (n.setStack z st).setStack z st' = n.setStack z st' := by
  simp only [Node.setStack, Node.modZone, List.modify_modify_eq]
  rfl

/-- A layer inserted in an empty stack is alone there. -/
theorem Node.insertInto_empty {n : Node} {z : Nat} (hz : z < n.mixer.zones.length) (hst : n.stack z = []) (id c : Nat) :
    n.insertInto z id c = n.setStack z [loneLayer id c] := by
  have settled : (n.setStack z (insertLayer (newLayer id c) (n.stack z))).settle z = n.setStack z [loneLayer id c] := by
    rw [hst, show insertLayer (newLayer id c) [] = [newLayer id c] from rfl, Node.settle, Node.stack_setStack_self hz,
      Node.setStack_setStack, settleStack_lone]
  rw [Node.insertInto, settled, Node.stack_setStack_self hz, Node.setStack_setStack, List.map_singleton,
    if_pos (show (loneLayer id c).binding = id from rfl)]
  rfl

/-- An admission to an empty stack makes the binding and its layer. -/
theorem Node.tryAdmit_empty {n : Node} {z id : Nat} {b : Binding} (hk : n.kindAdmits z b.cls = true)
    (hlimit : 1 ≤ (n.classRecord b.cls).limit) (hlen : z < n.mixer.zones.length) (hst : n.stack z = [])
    (hfree : n.lowestFree = some id) (hs : b.source ≠ .callTone) (alarm : Bool) : n.tryAdmit z b none alarm =
      ⟨(n.setBinding id (some { b with zones := BitVec.twoPow 16 z })).setStack z [loneLayer id b.cls], some id, .active⟩ := by
  have hnone : n.binding id = none := by simpa using List.find?_some hfree
  have hl : n.limitAdmits z b.cls = true := by
    rw [Node.limitAdmits, hst]
    exact decide_eq_true hlimit
  have room : n.makeRoom z b.cls alarm = some n := Node.makeRoom_spare (by rw [hst]; decide) _ _
  rw [Node.tryAdmit_new hk hl room hfree, Node.joinZone_new hnone hs]
  generalize hm : n.setBinding id _ = m
  have hlen' : z < m.mixer.zones.length := hm ▸ hlen
  have hst' : m.stack z = [] := hm ▸ hst
  rw [Node.insertInto_empty hlen' hst', Node.layerAnswer, Node.stack_setStack_self hlen', layerOf_lone]
  rfl

/-! ## BIND in one zone (R53, R54) -/

/-- A push into one zone is one admission. -/
theorem Node.push_one (n : Node) (z : Nat) (b : Binding) : n.push [z] b =
    { node := (n.tryAdmit z b none false).node
      id := (n.tryAdmit z b none false).id
      active := (n.tryAdmit z b none false).node.countLayers [z] (n.tryAdmit z b none false).id .active
      held := (n.tryAdmit z b none false).node.countLayers [z] (n.tryAdmit z b none false).id .held
      kind := if (n.tryAdmit z b none false).outcome = .refusedKind then 1 else 0
      full := if (n.tryAdmit z b none false).outcome = .refusedFull then 1 else 0 } := by
  simp only [Node.push, Pushed.next, List.foldl_cons, List.foldl_nil, Nat.zero_add]

/-- The count of a binding's layers in one zone is of its layer there. -/
theorem Node.countLayers_one {n : Node} {z id : Nat} {l : Layer} (h : layerOf (n.stack z) id = some l) (st : LayerState) :
    n.countLayers [z] (some id) st = if l.state = st then 1 else 0 := by
  by_cases hst : l.state = st <;> simp [Node.countLayers, h, hst]

/-- The checks of a BIND before the last: kind and index name a source, the class is not the alarm channels', AUTO_END is of a
ring source, and the target is well-formed (R53). -/
structure BindValid (kind index c : Nat) (autoEnd : Bool) (target : Target) (source : Source) : Prop where
  source : Source.ofBind kind index = some source
  le_seven : c ≤ 7
  ne_six : c ≠ 6
  ring : autoEnd = true → kind = 0
  target : targetMalformed target = false

section Bind

variable {kind index c : Nat} {autoEnd : Bool} {target : Target} {source : Source}

/-- The kinds of a BIND are those of ring slots, inputs and players. -/
theorem Source.ofBind_kind (h : Source.ofBind kind index = some source) : kind < 3 ∧ source ≠ .callTone := by
  unfold Source.ofBind at h
  repeat' split at h
  all_goals simp at h
  all_goals exact ⟨by omega, by simp [← h]⟩

/-- With the other checks passed, a BIND is refused when no id is FREE. -/
theorem Node.checkBind_valid (h : BindValid kind index c autoEnd target source) (n : Node) :
    n.checkBind kind index c autoEnd target = if n.bindingsFull then .error .full else .ok source := by
  have hkind := (Source.ofBind_kind h.source).1
  have hcls := h.le_seven
  have hsix := h.ne_six
  have hring : ¬(autoEnd = true ∧ kind ≠ 0) := fun ⟨ha, hk⟩ => hk (h.ring ha)
  rw [Node.checkBind, if_neg (by omega), h.source]
  dsimp only
  rw [if_neg (by omega), if_neg hring, h.target, if_neg (by decide)]

theorem Node.bindSource_full (h : BindValid kind index c autoEnd target source) {n : Node} (hfree : n.lowestFree = none)
    (who : Req) (gain : Int) (cookie : Nat) :
    n.bindSource who kind index c gain autoEnd cookie target = n.respond who 0x13 .full [0xFF, 0, 0, 0, 0] := by
  have full : n.bindingsFull = true := by rw [Node.bindingsFull, hfree]; rfl
  rw [Node.bindSource, Node.checkBind_valid h, if_pos full]

/-- A BIND that passes its checks pushes its binding into the zones that its target reaches. -/
theorem Node.bindSource_push (h : BindValid kind index c autoEnd target source) {n : Node} (hfree : n.lowestFree.isSome = true)
    (who : Req) (gain : Int) (cookie : Nat) {p : Pushed}
    (hp : n.push (n.resolve target) (remoteBinding who source c gain autoEnd cookie) = p) :
    n.bindSource who kind index c gain autoEnd cookie target =
      p.node.respond who 0x13 (if p.id.isSome then .ok else .noneAdmitted) p.results := by
  have room : ¬n.bindingsFull = true := by
    rw [Node.bindingsFull]
    cases hl : n.lowestFree <;> simp_all
  rw [Node.bindSource, Node.checkBind_valid h, if_neg room, ← hp]

/-- A BIND whose one zone refuses it leaves the part as it was, and counts the refusal. -/
theorem Node.bindSource_refused (h : BindValid kind index c autoEnd target source) {n : Node}
    (hfree : n.lowestFree.isSome = true) {z : Nat} (hz : n.resolve target = [z]) {who : Req} {gain : Int} {cookie : Nat}
    {outcome : Admit}
    (hadmit : n.tryAdmit z (remoteBinding who source c gain autoEnd cookie) none false = ⟨n, none, outcome⟩) :
    n.bindSource who kind index c gain autoEnd cookie target = n.respond who 0x13 .noneAdmitted
      [0xFF, 0, 0, byte (if outcome = .refusedKind then 1 else 0), byte (if outcome = .refusedFull then 1 else 0)] := by
  rw [Node.bindSource_push h hfree who gain cookie (by rw [hz, Node.push_one, hadmit])]
  rfl

/-- A BIND whose one zone has an empty stack and admits it makes its binding and its layer there. -/
theorem Node.bindSource_admitted (h : BindValid kind index c autoEnd target source) {n : Node} {z id : Nat}
    (hfree : n.lowestFree = some id) (hz : n.resolve target = [z]) (hlen : z < n.mixer.zones.length) (hst : n.stack z = [])
    (hk : n.kindAdmits z c = true) (hlimit : 1 ≤ (n.classRecord c).limit) (who : Req) (gain : Int) (cookie : Nat) :
    n.bindSource who kind index c gain autoEnd cookie target =
      ((n.setBinding id (some { remoteBinding who source c gain autoEnd cookie with zones := BitVec.twoPow 16 z })).setStack z
        [loneLayer id c]).respond who 0x13 .ok [byte id, 1, 0, 0, 0] := by
  rw [Node.bindSource_push h (by rw [hfree]; rfl) who gain cookie (by rw [hz, Node.push_one])]
  rw [Node.tryAdmit_empty (b := remoteBinding who source c gain autoEnd cookie) hk hlimit hlen hst hfree
    (Source.ofBind_kind h.source).2]
  generalize hm : n.setBinding id _ = m
  have hlen' : z < m.mixer.zones.length := hm ▸ hlen
  have layer : layerOf ((m.setStack z [loneLayer id c]).stack z) id = some (loneLayer id c) := by
    rw [Node.stack_setStack_self hlen', layerOf_lone]
  have hcls : (remoteBinding who source c gain autoEnd cookie).cls = c := rfl
  simp only [hcls, Node.countLayers_one layer, Pushed.results]
  rfl

end Bind

/-- A command whose work is a response alone enqueues its answer and changes nothing else. -/
theorem onNode_responds {s : State} {who : Req} (h : s.node.ready who = true) {work : Node → Node} {kind : Nat} {status : Status}
    {results : List Byte} (hwork : work s.node.reserve = s.node.reserve.respond who kind status results) :
    onNode (fun n => n.taken who work) s = .next { s with node := s.node.enqueue (s.node.answer who kind status results) } := by
  rw [onNode_taken h, hwork, Node.reserve_respond]

/-- A target reaches zones of the part alone. -/
theorem Node.lt_of_resolve {n : Node} {t : Target} {z : Nat} (h : n.resolve t = [z]) : z < 16 := by
  have mem : z ∈ n.resolve t := h ▸ List.mem_singleton_self z
  exact List.mem_range.1 (List.mem_filter.1 mem).1

/-- Settles O21: BIND in one zone by the outcome of its admission, then room in a full stack, then the place of a layer. -/
theorem bindPlacesALayer : Obligations.BindPlacesALayer := by
  refine ⟨?admitted, ?refused, fun n z c above bottom hst => ⟨fun hspare => ?_, fun hfull => ?_⟩, fun l st => insertLayer_place l⟩
  case admitted =>
    intro who kind index c gain autoEnd cookie target source z id s hinv hready hsource hc h6 hring htarget hz hst hk hlimit
      hfree n b l
    have valid : BindValid kind index c autoEnd target source := ⟨hsource, hc, h6, hring, htarget⟩
    have hlen : z < n.mixer.zones.length := by
      rw [Node.zones_len hinv]
      exact Node.lt_of_resolve hz
    have run := onNode_taken hready fun m => m.bindSource who kind index c gain autoEnd cookie target
    rw [Node.bindSource_admitted (n := s.node.reserve) valid hfree hz hlen hst hk hlimit] at run
    exact run
  case refused =>
    intro who kind index c gain autoEnd cookie target source s hready hsource hc h6 hring htarget n answers
    have valid : BindValid kind index c autoEnd target source := ⟨hsource, hc, h6, hring, htarget⟩
    refine ⟨fun hfull => onNode_responds hready (Node.bindSource_full (n := n.reserve) valid hfull who gain cookie), fun hfree hz => ?_,
      ?_⟩
    · have pushed : n.reserve.push (n.reserve.resolve target) (remoteBinding who source c gain autoEnd cookie) =
          { node := n.reserve, id := none, active := 0, held := 0, kind := 0, full := 0 } := by
        rw [show n.reserve.resolve target = [] from hz]
        rfl
      exact onNode_responds hready (Node.bindSource_push (n := n.reserve) valid hfree who gain cookie pushed)
    · intro z hfree hz admits live
      have hlive : liveCount (n.stack z) c = live := liveCount_eq _ _
      have limit : n.limitAdmits z c = decide (live < (n.classRecord c).limit) := by rw [Node.limitAdmits, hlive]
      let b := remoteBinding who source c gain autoEnd cookie
      have refused {outcome : Admit} := Node.bindSource_refused (n := n.reserve) valid hfree hz (who := who) (gain := gain)
        (cookie := cookie) (outcome := outcome)
      refine ⟨fun hk => ?_, fun hk hlimit => ?_, fun above bottom hst hfull hb hcls hk hlimit => ?_⟩
      · have kind : n.kindAdmits z c = false := Bool.eq_false_iff.2 hk
        exact onNode_responds hready (refused (Node.tryAdmit_kind (n := n.reserve) (b := b) kind none false))
      · have atLimit : n.limitAdmits z c = false := limit.trans (decide_eq_false (Nat.not_lt.2 hlimit))
        exact onNode_responds hready (refused (Node.tryAdmit_limit (n := n.reserve) (b := b) hk atLimit none false))
      · have below : n.limitAdmits z c = true := limit.trans (decide_eq_true hlimit)
        have full : n.reserve.makeRoom z c false = none := Node.makeRoom_none (n := n.reserve) hst hfull hb hcls
        exact onNode_responds hready (refused (Node.tryAdmit_noRoom (n := n.reserve) (b := b) hk below full none))
  · exact Node.makeRoom_spare (by rw [hst, List.length_append, List.length_singleton]; omega) c false
  · refine ⟨fun hb => Node.makeRoom_cut hst hfull hb c false, fun hb hcls h62 h63 => Node.makeRoom_evict hst hfull hb hcls h62 h63 _,
      fun hb hcls hid hlive => ?_, fun top l below habove hl hbelow hb hcls hid => ?_⟩
    · rw [Node.makeRoom_alarm hst hfull hb hcls hid]
      refine Node.cutLowest_none fun l hl => ?_
      rw [hst, List.mem_append, List.mem_singleton] at hl
      rcases hl with hl | rfl
      · exact hlive l hl
      · exact hb
    · rw [Node.makeRoom_alarm hst hfull hb hcls hid]
      have hsplit : n.stack z = top ++ l :: (below ++ [bottom]) := by rw [hst, habove, List.append_assoc, List.cons_append]
      refine Node.cutLowest_some hsplit hl fun x hx => ?_
      rw [List.mem_append, List.mem_singleton] at hx
      rcases hx with hx | rfl
      · exact hbelow x hx
      · exact hb

end Sys2Proof.Machine
end

section
/-! PROOF. The class table: READ CLASS (O9) and WRITE CLASS (O17). -/

namespace Sys2Proof.Machine

/-! ## READ CLASS (R66) -/

/-- The bytes of a class record, its kind mask widened to a byte (R201). -/
theorem ClassRecord.bytes_eq (r : ClassRecord) : r.bytes =
    [byte r.equal.code] ++ levelBytes r.duck ++ [byte r.volume.code, BitVec.setWidth 8 r.kinds, byte r.limit] := by
  rw [ClassRecord.bytes, ← BitVec.ofNat_toNat]
  rfl

/-- Settles O9: either case is a response alone. -/
theorem readClassAnswers : Obligations.ReadClassAnswers := by
  intro who c s hready n r m
  have responds {status : Status} {results : List Byte}
      (hwork : s.node.reserve.readClass who c = s.node.reserve.respond who 0x19 status results) :=
    onNode_responds hready (work := fun n => n.readClass who c) hwork
  by_cases hc : 7 < c
  · simp only [m, if_pos hc]
    exact responds (if_pos hc)
  · simp only [m, if_neg hc]
    rw [← ClassRecord.bytes_eq]
    exact responds (if_neg hc)

/-! ## WRITE CLASS (R64) -/

/-- The corrections for a class below 6 are those of its duck value and its limit (R62). -/
theorem correctClass_low {c : Nat} (hc : c ≤ 5) (r : ClassRecord) : correctClass c r =
    { r with duck := if r.duck = -385 then -385 else max (-384) (min 0 r.duck), limit := max 1 (min 6 r.limit) } := by
  have not67 : ¬(c = 6 ∨ c = 7) := by omega
  rw [correctClass, if_neg not67, if_neg (show ¬c = 6 by omega), if_neg (show ¬c = 7 by omega)]
  rfl

theorem Node.writeClass_inRange {c equal volume : Nat} {e : EqualRule} {v : VolumeRule} (hc : c ≤ 4)
    (he : EqualRule.ofCode equal = some e) (hv : VolumeRule.ofCode volume = some v) (n : Node) (who : Req) (duck : Int)
    (kinds : Byte) (limit : Nat) {r : ClassRecord}
    (hr : correctClass c { equal := e, duck := duck, volume := v, kinds := kindMaskOf kinds, limit := limit } = r) :
    n.writeClass who c equal duck volume kinds limit = ((n.setClass c r).classChange [c]).respond who 0x18 .ok
      (((n.setClass c r).classChange [c]).classRecord c).bytes := by
  rw [Node.writeClass, if_neg (by omega), if_neg (by omega), he, hv, ← hr]

/-- A class record replaced is in force once its change has gone through the stacks. -/
theorem Node.classChange_setClass (n : Node) (c : Nat) (r : ClassRecord) (changed : List Nat) :
    ((n.setClass c r).classChange changed).mixer.classes = n.mixer.classes.set c r :=
  congrArg Fixed.classes ((n.setClass c r).classChange_fixed changed)

/-- Settles O17: the record is replaced, and no stack's change writes the class table or the address of the response. -/
theorem writeClassReplacesTheRecord : Obligations.WriteClassReplacesTheRecord := by
  intro who c equal duck volume kinds limit e v s hinv hready hc he hv r
  have hlen : c < s.node.mixer.classes.length := by
    rw [Node.classes_len hinv]
    omega
  have corrected : correctClass c { equal := e, duck := duck, volume := v, kinds := kindMaskOf kinds, limit := limit } = r :=
    correctClass_low (by omega) _
  have run := onNode_taken hready fun m => m.writeClass who c equal duck volume kinds limit
  rw [Node.writeClass_inRange hc he hv _ _ _ _ _ corrected] at run
  have hclasses := s.node.reserve.classChange_setClass c r [c]
  have haddress : ((s.node.reserve.setClass c r).classChange [c]).mgmt = s.node.mgmt :=
    congrArg Fixed.mgmt ((s.node.reserve.setClass c r).classChange_fixed [c])
  generalize (s.node.reserve.setClass c r).classChange [c] = changed at run hclasses haddress
  have inForce : changed.classRecord c = r := by
    rw [Node.classRecord, hclasses]
    exact getD_set_self _ _ _ hlen
  rw [inForce] at run
  refine ⟨_, run, hclasses, ?_⟩
  rw [Node.answer, ← haddress]
  exact List.getLast?_concat

end Sys2Proof.Machine
end

section
/-! PROOF. A settled stack by its places, and the layer that leaves its stack at the end of its fade (O41). -/

namespace Sys2Proof.Machine

/-! ## The state rule at one place of a stack (R72, R75) -/

/-- The state that the rule gives a layer, where `met` says that a live layer of its class stands above it (R72). -/
def ruledState (rule : Nat → EqualRule) (met : Bool) (l : Layer) : LayerState :=
  if l.live then
    match rule l.cls with
    | .mix => .active
    | .queue => if met then .held else .active
  else .releasing

section RuledState

variable {rule : Nat → EqualRule} {l : Layer}

theorem ruledState_releasing (hl : l.state = .releasing) (met : Bool) : ruledState rule met l = .releasing := by
  simp [ruledState, Layer.live, hl]

theorem ruledState_mix (hl : l.state ≠ .releasing) (hrule : rule l.cls = .mix) (met : Bool) :
    ruledState rule met l = .active := by
  simp [ruledState, Layer.live, hl, hrule]

theorem ruledState_queue (hl : l.state ≠ .releasing) (hrule : rule l.cls = .queue) (met : Bool) :
    ruledState rule met l = if met then .held else .active := by
  simp [ruledState, Layer.live, hl, hrule]

end RuledState

/-- A stack has a live layer of class `c`. -/
def hasLive (st : List Layer) (c : Nat) : Bool := st.any fun x => x.live && x.cls == c

theorem hasLive_iff (st : List Layer) (c : Nat) :
    hasLive st c = true ↔ ∃ x ∈ st, x.state ≠ .releasing ∧ x.cls = c := by
  simp [hasLive, Layer.live]

/-- A class is met above place `i` when some earlier place has a live layer of it. -/
theorem hasLive_take_iff (st : List Layer) (i c : Nat) : hasLive (st.take i) c = true ↔
    ∃ (j : Nat) (x : Layer), j < i ∧ st[j]? = some x ∧ x.state ≠ .releasing ∧ x.cls = c := by
  rw [hasLive_iff]
  constructor
  · rintro ⟨x, hx, hstate, hcls⟩
    obtain ⟨j, hj⟩ := List.mem_iff_getElem?.1 hx
    rw [List.getElem?_take] at hj
    split at hj
    · next hji => exact ⟨j, x, hji, hj, hstate, hcls⟩
    · cases hj
  · rintro ⟨j, x, hji, hj, hstate, hcls⟩
    refine ⟨x, List.mem_iff_getElem?.2 ⟨j, ?_⟩, hstate, hcls⟩
    rw [List.getElem?_take, if_pos hji, hj]

/-- The QUEUE classes met once the rule has passed a layer. -/
def seenPast (rule : Nat → EqualRule) (seen : List Nat) (l : Layer) : List Nat :=
  if l.live ∧ rule l.cls = .queue ∧ ¬seen.contains l.cls then l.cls :: seen else seen

/-- The state rule gives the top layer its state and goes on below it. -/
theorem applyStates_cons (rule : Nat → EqualRule) (seen : List Nat) (l : Layer) (rest : List Layer) :
    applyStates rule seen (l :: rest) =
      l.become (ruledState rule (seen.contains l.cls) l) :: applyStates rule (seenPast rule seen l) rest := by
  rw [applyStates]
  by_cases hl : l.live = true
  · cases hrule : rule l.cls with
    | mix => simp [ruledState, seenPast, hl, hrule]
    | queue => by_cases hseen : l.cls ∈ seen <;> simp [ruledState, seenPast, hl, hrule, hseen]
  · have hstate : l.state = .releasing := l.live_eq_false_iff.1 (Bool.eq_false_iff.2 hl)
    have stays : l.become .releasing = l := if_pos hstate
    simp [ruledState_releasing hstate, seenPast, hl, stays]

/-- For a layer of a QUEUE class the classes met past `l` are those met before and the live class of `l`; for one of a MIX class
they make no difference. -/
theorem ruledState_seenPast (rule : Nat → EqualRule) (seen : List Nat) (l x : Layer) (met : Bool) :
    ruledState rule ((seenPast rule seen l).contains x.cls || met) x =
      ruledState rule (seen.contains x.cls || ((l.live && l.cls == x.cls) || met)) x := by
  cases hrule : rule x.cls with
  | mix => simp only [ruledState, hrule]
  | queue =>
    have past : (seenPast rule seen l).contains x.cls = (seen.contains x.cls || (l.live && l.cls == x.cls)) := by
      by_cases hcls : l.cls = x.cls
      · by_cases hseen : x.cls ∈ seen
        · simp [seenPast, hcls, hseen]
        · cases hl : l.live <;> simp [seenPast, hcls, hrule, hseen, hl]
      · have other : ¬x.cls = l.cls := fun h => hcls h.symm
        rw [seenPast]
        split <;> simp [hcls, other]
    rw [past, Bool.or_assoc]

/-- What the state rule leaves at each place: the layer there, in the state given by the layers above it. -/
theorem applyStates_getElem? (rule : Nat → EqualRule) (seen : List Nat) (st : List Layer) (i : Nat) :
    (applyStates rule seen st)[i]? =
      st[i]?.map fun l => l.become (ruledState rule (seen.contains l.cls || hasLive (st.take i) l.cls) l) := by
  induction st generalizing seen i with
  | nil => rfl
  | cons l rest ih =>
    rw [applyStates_cons]
    cases i with
    | zero => simp [hasLive]
    | succ i =>
      rw [List.getElem?_cons_succ, List.getElem?_cons_succ, ih]
      exact congrArg (rest[i]?.map ·) (funext fun x => congrArg x.become (ruledState_seenPast rule seen l x _))

@[simp] theorem Layer.become_state (l : Layer) (st : LayerState) : (l.become st).state = st := by
  rw [Layer.become]
  split
  · next h => exact h
  · rfl

/-- A change of state changes no more than the state and the fade's starting point. -/
theorem Layer.become_rest (l : Layer) (st : LayerState) :
    l.become st = { l with state := st, fade := (l.become st).fade, fresh := (l.become st).fresh } := by
  rw [Layer.become]
  split
  · next h => rw [← h]
  · rfl

theorem Layer.become_fade {l : Layer} {st : LayerState} :
    (st = l.state → (l.become st).fade = l.fade ∧ (l.become st).fresh = l.fresh) ∧
      (st ≠ l.state → (l.become st).fade = -384 ∧ (l.become st).fresh = true) := by
  refine ⟨fun h => ?_, fun h => ?_⟩
  · rw [Layer.become, if_pos h.symm]
    exact ⟨rfl, rfl⟩
  · rw [Layer.become, if_neg (Ne.symm h)]
    exact ⟨rfl, rfl⟩

/-! ## Duck targets (R74) -/

/-- A duck target is the least of 0 and the duck values of the ACTIVE layers of higher classes. -/
theorem duckTarget_isLeast (duck : Nat → Int) (st : List Layer) (c : Nat) :
    (duckTarget duck st c = 0 ∨ ∃ x ∈ st, x.state = .active ∧ c < x.cls ∧ duckTarget duck st c = duck x.cls) ∧
      duckTarget duck st c ≤ 0 ∧ ∀ x ∈ st, x.state = .active → c < x.cls → duckTarget duck st c ≤ duck x.cls := by
  have least : (0 :: (st.filter fun l => l.state = .active && c < l.cls).map fun l => duck l.cls).min? =
      some (duckTarget duck st c) := by
    rw [List.min?_cons', List.foldl_map]
    rfl
  obtain ⟨hmem, hle⟩ := List.min?_eq_some_iff.1 least
  refine ⟨(List.mem_cons.1 hmem).imp_right fun h => ?_, hle 0 List.mem_cons_self, fun x hx hactive hcls => ?_⟩
  · obtain ⟨x, hx, heq⟩ := List.mem_map.1 h
    have hx' : x ∈ st ∧ x.state = .active ∧ c < x.cls := by simpa using hx
    exact ⟨x, hx'.1, hx'.2.1, hx'.2.2, heq.symm⟩
  · exact hle _ (List.mem_cons_of_mem _ (List.mem_map_of_mem (List.mem_filter.2 ⟨hx, by simp [hactive, hcls]⟩)))

/-- Duck targets read no duck target. -/
theorem duckTarget_retarget (duck : Nat → Int) (st : List Layer) (c : Nat) :
    duckTarget duck (retarget duck st) c = duckTarget duck st c := by
  simp only [duckTarget, retarget, List.filter_map, List.foldl_map]
  rfl

/-- What a settled stack has at each place: the layer there in its ruled state, with its duck target. -/
theorem settleStack_getElem? (classes : Nat → ClassRecord) (st : List Layer) (i : Nat) :
    (settleStack classes st)[i]? = st[i]?.map fun l =>
      { l.become (ruledState (fun c => (classes c).equal) (hasLive (st.take i) l.cls) l) with
        target := duckTarget (fun c => (classes c).duck) (settleStack classes st) l.cls } := by
  simp only [settleStack, duckTarget_retarget]
  simp only [retarget, List.getElem?_map, applyStates_getElem?, Option.map_map]
  refine congrArg (st[i]?.map ·) (funext fun l => ?_)
  simp only [Function.comp_apply, List.contains_nil, Bool.false_or]
  rw [Layer.become_rest]

/-! ## A layer that leaves its stack (R51, R77) -/

theorem Layer.endDue_of_low {l : Layer} (hstate : l.state = .releasing) (hfresh : l.fresh = false) (hfade : l.fade ≤ -380) :
    l.endDue = true := by
  have bottom : max fadeBottom (l.fade - 4) = fadeBottom := max_eq_left (by rw [fadeBottom]; omega)
  simp [Layer.endDue, Layer.fallen, hstate, hfresh, bottom]

theorem exec_layerFadeEnd {s : State} {z id : Nat} (h : s.node.fadeDue z id = true) :
    exec (.layerFadeEnd z id) s = .next { s with node := s.node.removeLayer z id } :=
  onNode_due (due := fun n => n.fadeDue z id) (work := fun n => n.removeLayer z id) h

/-- Binding `id` of `n` without zone `z`, with the zone's stack settled without its layer. -/
def Node.withoutLayer (n : Node) (z id : Nat) (b : Binding) : Node :=
  (n.setStack z (settleStack n.classRecord ((n.stack z).filter fun l => l.binding ≠ id))).setBinding id
    (some { b with zones := b.zones &&& ~~~(BitVec.twoPow 16 z) })

/-- An update of a LIVE binding puts its new record in the table. -/
theorem Node.modBinding_live {n : Node} {id : Nat} {b : Binding} (hb : n.binding id = some b) (f : Binding → Binding) :
    n.modBinding id f = n.setBinding id (some (f b)) := by
  rw [Node.modBinding, modify_eq_set_getD _ _ none, show n.mixer.bindings.getD id none = some b from hb]
  rfl

/-- A LIVE id is an index of the binding table. -/
theorem Node.lt_of_live {n : Node} {id : Nat} {b : Binding} (hb : n.binding id = some b) : id < n.mixer.bindings.length := by
  by_contra h
  rw [Node.binding, List.getD_eq_default _ _ (Nat.le_of_not_lt h)] at hb
  cases hb

theorem Node.withoutLayer_binding {n : Node} {id : Nat} {b : Binding} (hb : n.binding id = some b) (z : Nat) :
    (n.withoutLayer z id b).binding id = some { b with zones := b.zones &&& ~~~(BitVec.twoPow 16 z) } :=
  Node.binding_setBinding_self _ _ _ (Node.lt_of_live hb)

theorem Node.settle_setStack {n : Node} {z : Nat} (hz : z < n.mixer.zones.length) (st : List Layer) :
    (n.setStack z st).settle z = n.setStack z (settleStack n.classRecord st) := by
  rw [Node.settle, Node.stack_setStack_self hz, Node.setStack_setStack]
  rfl

/-- A layer leaves its stack and its binding's mask; the binding ends when its mask is then empty. -/
theorem Node.removeLayer_eq {n : Node} {z id : Nat} {b : Binding} (hz : z < n.mixer.zones.length)
    (hb : n.binding id = some b) : n.removeLayer z id =
      if b.zones &&& ~~~(BitVec.twoPow 16 z) = 0 then (n.withoutLayer z id b).bindingEnd id else n.withoutLayer z id b := by
  have live : (n.setStack z (settleStack n.classRecord ((n.stack z).filter fun l => l.binding ≠ id))).binding id = some b := hb
  simp only [Node.removeLayer, Node.settle_setStack hz, Node.modBinding_live live]
  rw [← Node.withoutLayer, Node.withoutLayer_binding hb]
  simp only [Option.any_some, decide_eq_true_eq]

/-- A notice writes the lane alone. -/
theorem Node.notice_lane (n : Node) (dest kind : Nat) (payload : List Byte) :
    n.notice dest kind payload = { n with lane := (n.notice dest kind payload).lane } := by
  rw [Node.notice]
  repeat' split
  all_goals rfl

/-- A binding of a remote owner, of a source other than the call tone, ends: its entry becomes FREE and its owner is sent a
notice (R52). -/
theorem Node.bindingEnd_remote {n : Node} {id : Nat} {b : Binding} (hb : n.binding id = some b) (hremote : b.isRemote = true)
    (hsource : b.source ≠ .callTone) : ∃ lane : Lane, n.bindingEnd id = { n.setBinding id none with lane := lane } := by
  cases howner : b.owner with
  | remote a cookie =>
    refine ⟨((n.setBinding id none).bindingEndedNotice id b b.endReason).lane, ?_⟩
    rw [Node.bindingEnd, hb]
    simp only [hsource, false_and, if_false, Node.bindingEndedNotice, Node.endReport, howner]
    exact Node.notice_lane _ _ _ _
  | channel | player | call => simp [Binding.isRemote, howner] at hremote

/-- Settles O41: the layer's removal by what is left of its binding's mask, and a settled stack place by place. -/
theorem fadeEndRemovesTheLayer : Obligations.FadeEndRemovesTheLayer := by
  refine ⟨?removal, fun classes st => ⟨settleStack_length classes st, fun i l hl => ?place⟩⟩
  case removal =>
    intro z id b l s hinv hstarted hz hl hstate hfresh hfade hb n rest zones
    have due : s.node.fadeDue z id = true := by
      simp [Node.fadeDue, Node.started, hstarted, hl, Layer.endDue_of_low hstate hfresh hfade]
    have hlen : z < n.mixer.zones.length := by
      rw [Node.zones_len hinv]
      omega
    have run := exec_layerFadeEnd due
    rw [Node.removeLayer_eq hlen hb] at run
    refine ⟨fun hzones => ?_, fun hzones hremote hsource => ?_⟩
    · rw [if_neg hzones] at run
      exact run
    · rw [if_pos hzones] at run
      obtain ⟨lane, hend⟩ := Node.bindingEnd_remote (Node.withoutLayer_binding hb z) hremote hsource
      rw [hend] at run
      refine ⟨_, run, rfl, ?_⟩
      simp only [Node.withoutLayer, Node.setBinding_mixer, Node.setStack_mixer, List.set_set]
      rfl
  case place =>
    let out := settleStack classes st
    let state := ruledState (fun c => (classes c).equal) (hasLive (st.take i) l.cls) l
    obtain ⟨hleast, hnonpos, hlower⟩ := duckTarget_isLeast (fun c => (classes c).duck) out l.cls
    obtain ⟨hkeeps, hrestarts⟩ := Layer.become_fade (l := l) (st := state)
    have hstate : (l.become state).state = state := Layer.become_state l state
    refine ⟨{ l.become state with target := duckTarget (fun c => (classes c).duck) out l.cls }, ?_, ?_, fun hrel => ?_,
      fun hlive hmix => ?_, fun hlive hqueue => ⟨fun htop => ?_, fun habove => ?_⟩, fun h => hkeeps (hstate.symm.trans h),
      fun h => hrestarts (hstate ▸ h), hnonpos, fun x hx hactive hcls => hlower x hx hactive ?_, ?_⟩
    · rw [settleStack_getElem?, hl]
      rfl
    · rw [Layer.become_rest]
    · exact hstate.trans (ruledState_releasing hrel _)
    · exact hstate.trans (ruledState_mix hlive hmix _)
    · have unmet : ¬hasLive (st.take i) l.cls = true := fun hmet => by
        obtain ⟨j, x, hji, hj, hx, hcls⟩ := (hasLive_take_iff st i l.cls).1 hmet
        exact htop j x hji hj hx hcls
      exact hstate.trans ((ruledState_queue hlive hqueue _).trans (if_neg unmet))
    · exact hstate.trans ((ruledState_queue hlive hqueue _).trans (if_pos ((hasLive_take_iff st i l.cls).2 habove)))
    · rw [Layer.become_rest] at hcls
      exact hcls
    · rw [Layer.become_rest]
      exact hleast

end Sys2Proof.Machine
end

section
/-! PROOF. The level scaling: the split of a level code and the rounding of a contribution (O59). -/

namespace Sys2Proof.Machine

/-! ## The split of a level code (R90) -/

/-- The exponent `e`, the fraction `f` and the shift `k` of a level code of R80. -/
structure LevelSplit (l e f k : Int) : Prop where
  code : l = 16 * e + f
  fraction_nonneg : 0 ≤ f
  fraction_le : f ≤ 15
  exponent_ge : -24 ≤ e
  code_le : l ≤ 32
  shift : k = 15 - e

theorem exists_levelSplit {l : Int} (hlow : -384 ≤ l) (hhigh : l ≤ 32) : ∃ e f k, LevelSplit l e f k :=
  ⟨l / 16, l % 16, 15 - l / 16, by omega, by omega, by omega, by omega, hhigh, rfl⟩

theorem mantissa_range : ∀ f, f ≤ 15 → 32768 ≤ mantissa f ∧ mantissa f ≤ 62757 := by decide

/-- A mantissa is the integer nearest to 2^15 × 2^(f/16), in the 16th powers of their doubles. -/
theorem mantissa_nearest : ∀ f, f ≤ 15 →
    (2 * mantissa f - 1) ^ 16 ≤ 2 ^ 256 * 2 ^ f ∧ 2 ^ 256 * 2 ^ f < (2 * mantissa f + 1) ^ 16 := by decide

section
variable {l e f k : Int} (h : LevelSplit l e f k)
include h

theorem LevelSplit.shift_range : 13 ≤ k ∧ k ≤ 39 := by
  obtain ⟨hcode, hf, hf', he, hl, hk⟩ := h
  omega

/-- The divisor 2^k is two half-units. -/
theorem LevelSplit.unit_eq : (2 : Int) ^ k.toNat = 2 * 2 ^ (k - 1).toNat := by
  have hk := h.shift_range
  rw [← pow_succ', show (k - 1).toNat + 1 = k.toNat by omega]

theorem LevelSplit.mantissa_range : 32768 ≤ mantissa f.toNat ∧ mantissa f.toNat ≤ 62757 :=
  Machine.mantissa_range _ (by have := h.fraction_le; omega)

/-- The scaled value by the parts of its level code (R91). -/
theorem LevelSplit.scale_eq (s : Int) :
    scale s l = (s * mantissa f.toNat + 2 ^ (k - 1).toNat) / 2 ^ k.toNat := by
  obtain ⟨hcode, hf, hf', he, hl, hk⟩ := h
  have floor : Int.fdiv l 16 = e := by
    rw [Int.fdiv_eq_ediv_of_nonneg _ (by decide)]
    omega
  rw [scale, floor, Int.fdiv_eq_ediv_of_nonneg _ (by positivity), hk, hcode, show 16 * e + f - 16 * e = f by omega,
    show (15 - e).toNat - 1 = (15 - e - 1).toNat by omega]

/-- The scaled value is the floor of R91. -/
theorem LevelSplit.scale_floor (s : Int) : scale s l * 2 ^ k.toNat ≤ s * mantissa f.toNat + 2 ^ (k - 1).toNat ∧
    s * mantissa f.toNat + 2 ^ (k - 1).toNat < (scale s l + 1) * 2 ^ k.toNat := by
  have unit_pos : (0 : Int) < 2 ^ k.toNat := by positivity
  rw [h.scale_eq]
  exact ⟨Int.ediv_mul_le _ unit_pos.ne', Int.lt_ediv_add_one_mul_self _ unit_pos⟩

/-- A product below the half step above `c` rounds to `c` at most. -/
theorem LevelSplit.scale_le {s c : Int} (hc : s * mantissa f.toNat < (2 * c + 1) * 2 ^ (k - 1).toNat) : scale s l ≤ c := by
  have half_pos : (0 : Int) < 2 ^ (k - 1).toNat := by positivity
  rw [h.scale_eq, h.unit_eq, ← Int.lt_add_one_iff]
  exact Int.ediv_lt_of_lt_mul (by positivity) (by linarith)

/-- A product from the half step below `c` on rounds to `c` at least: a tie rounds toward plus infinity. -/
theorem LevelSplit.le_scale {s c : Int} (hc : (2 * c - 1) * 2 ^ (k - 1).toNat ≤ s * mantissa f.toNat) : c ≤ scale s l := by
  have half_pos : (0 : Int) < 2 ^ (k - 1).toNat := by positivity
  rw [h.scale_eq, h.unit_eq]
  exact Int.le_ediv_of_mul_le (by positivity) (by linarith)

theorem LevelSplit.scale_eq_of_nearest {s c : Int} (hlow : (2 * c - 1) * 2 ^ (k - 1).toNat ≤ s * mantissa f.toNat)
    (hhigh : s * mantissa f.toNat < (2 * c + 1) * 2 ^ (k - 1).toNat) : scale s l = c :=
  le_antisymm (h.scale_le hhigh) (h.le_scale hlow)

theorem LevelSplit.scale_nonneg {s : Int} (hs : 0 ≤ s) : 0 ≤ scale s l := by
  have half_pos : (0 : Int) < 2 ^ (k - 1).toNat := by positivity
  have product : 0 ≤ s * mantissa f.toNat := mul_nonneg hs (by have := h.mantissa_range; omega)
  exact h.le_scale (by linarith)

theorem LevelSplit.scale_nonpos {s : Int} (hs : s ≤ 0) : scale s l ≤ 0 := by
  have half_pos : (0 : Int) < 2 ^ (k - 1).toNat := by positivity
  have product : s * mantissa f.toNat ≤ 0 := mul_nonpos_of_nonpos_of_nonneg hs (by have := h.mantissa_range; omega)
  exact h.scale_le (by linarith)

/-- The amplification M/2^k of a level code is at most 4, that of +32: the half-unit is an eighth of the mantissa at least. -/
theorem LevelSplit.mantissa_le : mantissa f.toNat ≤ 8 * 2 ^ (k - 1).toNat := by
  obtain ⟨hcode, hf, hf', he, hl, hk⟩ := h
  by_cases htop : e = 2
  · obtain rfl : f = 0 := by omega
    obtain rfl : k = 13 := by omega
    decide
  · have half_ge : (2 : Int) ^ 13 ≤ 2 ^ (k - 1).toNat := pow_le_pow_right₀ (by decide) (by omega)
    have := (Machine.mantissa_range f.toNat (by omega)).2
    linarith

/-- A sample scaled by a level code is at most 4 times as large. -/
theorem LevelSplit.scale_bounds (s : Int) : min 0 (4 * s) ≤ scale s l ∧ scale s l ≤ max 0 (4 * s) := by
  have half_pos : (0 : Int) < 2 ^ (k - 1).toNat := by positivity
  have amplified := h.mantissa_le
  rcases le_total 0 s with hs | hs
  · rw [min_eq_left (by omega), max_eq_right (by omega)]
    exact ⟨h.scale_nonneg hs, h.scale_le (by nlinarith)⟩
  · rw [min_eq_right (by omega), max_eq_left (by omega)]
    exact ⟨h.le_scale (by nlinarith), h.scale_nonpos hs⟩

end

/-! ## Contributions (R91) -/

/-- Unity. -/
theorem scale_zero (s : Int) : scale s 0 = s := by
  have split : LevelSplit 0 0 0 15 := by constructor <;> decide
  refine split.scale_eq_of_nearest ?_ ?_ <;> simp [mantissa] <;> omega

/-- Halving. -/
theorem scale_half (s : Int) : scale s (-16) = Int.fdiv (s + 1) 2 := by
  have split : LevelSplit (-16) (-1) 0 16 := by constructor <;> decide
  rw [Int.fdiv_eq_ediv_of_nonneg _ (by decide)]
  refine split.scale_eq_of_nearest ?_ ?_ <;> simp [mantissa] <;> omega

/-- Settles O59, by the two half steps between which the product of a sample and its mantissa lies. -/
theorem contributionsRound : Obligations.ContributionsRound := by
  refine ⟨mantissa_nearest, fun l hlow hhigh => ?parts, fun s => ⟨scale_zero s, scale_half s⟩,
    fun s l hs hs' hlow hhigh => ?bounds, by decide, by decide⟩
  case parts =>
    obtain ⟨e, f, k, split⟩ := exists_levelSplit hlow hhigh
    obtain ⟨hk, hk'⟩ := split.shift_range
    exact ⟨e, f, k, split.code, split.fraction_nonneg, split.fraction_le, split.exponent_ge, by have := split.shift; omega,
      split.shift, hk, hk', split.scale_floor⟩
  case bounds =>
    obtain ⟨e, f, k, split⟩ := exists_levelSplit hlow hhigh
    have within := split.scale_bounds s
    exact ⟨by omega, by omega, fun h => split.scale_nonneg h.le, fun h => split.scale_nonpos h.le⟩

end Sys2Proof.Machine
end

section
/-! PROOF. The ramps of volume, duck and fade (O42). -/

namespace Sys2Proof.Machine

/-! ## The volume ramp (R82) -/

theorem Zone.rampVolume_step {r : Zone} (hne : r.vol ≠ r.volTarget) (hcount : 11 ≤ r.volCount) : r.rampVolume =
    { r with volCount := 0, vol := r.vol + if r.vol < r.volTarget then 1 else -1 } := by
  rw [Zone.rampVolume, if_neg hne, if_pos (by omega)]
  split <;> rfl

/-- The volume ramp leaves the clip count alone. -/
theorem Zone.rampVolume_clips (r : Zone) : r.rampVolume.clips = r.clips := by
  rw [Zone.rampVolume]
  repeat' split
  all_goals rfl

theorem exec_volumeStep {s : State} {z : Nat} (h : s.node.volumeDue z = true) :
    exec (.volumeStep z) s = .next { s with node := (s.node.modZone z Zone.rampVolume).mark (.volume z) } :=
  onNode_due (due := fun n => n.volumeDue z) (work := fun n => (n.modZone z Zone.rampVolume).mark (.volume z)) h

/-! ## The duck ramp (R83) -/

theorem Layer.rampDuck_falls {l : Layer} (h : l.target < l.duck) :
    l.rampDuck = { l with duck := l.duck - 1, duckCount := 0 } := if_pos h

theorem Layer.rampDuck_lifts {l : Layer} (h : l.duck < l.target) : l.rampDuck =
    if 24 ≤ l.duckCount + 1 then { l with duck := l.duck + 1, duckCount := 0 }
    else { l with duckCount := l.duckCount + 1 } := by
  rw [Layer.rampDuck, if_neg (by omega), if_pos h]

theorem Layer.rampDuck_rests {l : Layer} (h : l.duck = l.target) : l.rampDuck = { l with duckCount := 0 } := by
  rw [Layer.rampDuck, if_neg (by omega), if_neg (by omega)]

/-- The duck ramp writes the duck and its count alone. -/
theorem Layer.rampDuck_eq (l : Layer) :
    l.rampDuck = { l with duck := l.rampDuck.duck, duckCount := l.rampDuck.duckCount } := by
  rcases lt_trichotomy l.duck l.target with h | h | h
  · rw [Layer.rampDuck_lifts h]
    split <;> rfl
  · rw [Layer.rampDuck_rests h]
  · rw [Layer.rampDuck_falls h]

theorem Layer.liftFor_binding (id : Nat) (l : Layer) : (l.liftFor id).binding = l.binding := by
  rw [Layer.liftFor]
  split
  · rw [Layer.rampDuck_eq]
  · rfl

/-- The layer of the binding that is lifted takes the step. -/
theorem layerOf_map_liftFor (st : List Layer) (id : Nat) :
    layerOf (st.map (Layer.liftFor id)) id = (layerOf st id).map Layer.rampDuck := by
  induction st with
  | nil => rfl
  | cons l st ih =>
    simp only [layerOf, List.map_cons, List.find?_cons, Layer.liftFor_binding] at ih ⊢
    by_cases h : l.binding = id
    · simp [h, Layer.liftFor]
    · simpa [h] using ih

/-- The layers of the other bindings stay as they are. -/
theorem filter_map_liftFor (st : List Layer) (id : Nat) :
    (st.map (Layer.liftFor id)).filter (fun l => l.binding ≠ id) = st.filter fun l => l.binding ≠ id := by
  induction st with
  | nil => rfl
  | cons l st ih =>
    simp only [List.map_cons, List.filter_cons, Layer.liftFor_binding]
    by_cases h : l.binding = id
    · simpa [h] using ih
    · simpa [h, Layer.liftFor] using ih

theorem exec_duckLiftStep {s : State} {z id : Nat} (hstarted : s.node.mgmt.node ≠ .starting)
    (htook : Share.duck z id ∉ s.node.early) (hdue : (layerOf (s.node.stack z) id).any Layer.liftDue = true) :
    exec (.duckLiftStep z id) s = .next { s with
      node := (s.node.setStack z ((s.node.stack z).map (Layer.liftFor id))).mark (.duck z id) } :=
  onNode_due (due := fun n => n.started && !n.took (.duck z id) && (layerOf (n.stack z) id).any Layer.liftDue)
    (work := fun n => (n.setStack z ((n.stack z).map (Layer.liftFor id))).mark (.duck z id))
    (by simp [Node.started, Node.took, hstarted, htook, hdue])

/-! ## The fade ramp, and a layer's ramps together (R84) -/

/-- The fade step depends on the state and the fade alone. -/
theorem Layer.rampFade_fade_congr {l m : Layer} (hstate : m.state = l.state) (hfade : m.fade = l.fade) :
    m.rampFade.fade = l.rampFade.fade := by
  rw [Layer.rampFade, Layer.rampFade, hstate]
  cases l.state
  · simp only [hfade]
  · rfl
  · simp only [Layer.fallen, hfade]

/-- The fade ramp writes the fade alone. -/
theorem Layer.rampFade_eq (l : Layer) : l.rampFade = { l with fade := l.rampFade.fade } := by
  rw [Layer.rampFade]
  cases l.state <;> rfl

/-- The ramps of a layer whose duck count no event row has taken: the duck ramp, and the fade ramp but for a fade just set. -/
theorem Node.rampLayer_untaken {n : Node} {z : Nat} {l : Layer} (h : Share.duck z l.binding ∉ n.early) :
    n.rampLayer z l = { l with
      duck := l.rampDuck.duck
      duckCount := l.rampDuck.duckCount
      fade := if l.fresh = true then l.fade else l.rampFade.fade
      fresh := false } := by
  have fade : l.rampDuck.rampFade.fade = l.rampFade.fade := by
    rw [Layer.rampDuck_eq]
    exact Layer.rampFade_fade_congr rfl rfl
  have untaken : ¬n.took (.duck z l.binding) = true := by simpa [Node.took] using h
  simp only [Node.rampLayer, if_neg untaken]
  by_cases hfresh : l.fresh = true
  · rw [if_pos hfresh, if_pos hfresh, Layer.rampDuck_eq]
  · rw [if_neg hfresh, if_neg hfresh, Layer.rampFade_eq, fade, Layer.rampDuck_eq]
    simp [hfresh]

/-- Settles O42, by the step of each ramp. -/
theorem rampsMoveOneStep : Obligations.RampsMoveOneStep := by
  refine ⟨fun z s hinv hstarted hz => ⟨?volume, ?lift⟩, fun n z l hduck => ?layer⟩
  case volume =>
    intro htook hne hcount
    have due : s.node.volumeDue z = true := by
      simp [Node.volumeDue, Node.started, Node.took, hstarted, htook, hne]
      omega
    rw [exec_volumeStep due, Node.modZone, modify_eq_set_getD _ _ .reset, ← Node.zone, Zone.rampVolume_step hne hcount]
    rfl
  case lift =>
    intro id l htook hl hlow hcount
    have hlen : z < s.node.mixer.zones.length := by
      rw [Node.zones_len hinv]
      omega
    have due : (layerOf (s.node.stack z) id).any Layer.liftDue = true := by
      simp [hl, Layer.liftDue, hlow]
      omega
    have lifted : l.rampDuck = { l with duck := l.duck + 1, duckCount := 0 } :=
      (Layer.rampDuck_lifts hlow).trans (if_pos (by omega))
    refine ⟨_, exec_duckLiftStep hstarted htook due, rfl, ?_, ?_, ?_, fun y hy => s.node.zone_modZone_other z y _ hy.symm⟩
    · show layerOf ((s.node.setStack z _).stack z) id = _
      rw [Node.stack_setStack_self hlen, layerOf_map_liftFor, hl, Option.map_some, lifted]
    · show ((s.node.setStack z _).stack z).filter _ = _
      rw [Node.stack_setStack_self hlen, filter_map_liftFor]
    · have ramped := s.node.zone_modZone_self z (fun r => { r with stack := (s.node.stack z).map (Layer.liftFor id) }) hlen
      refine ramped.trans ?_
      exact congrArg (fun st => { s.node.zone z with stack := st }) (Node.stack_setStack_self hlen _).symm
  case layer =>
    rw [Node.rampLayer_untaken hduck]
    refine ⟨rfl, fun h => ?_, fun h => ?_, fun h => ?_, ?_⟩
    · simp only [Layer.rampDuck_falls h, and_self]
    · simp only [Layer.rampDuck_lifts h]
      split <;> exact ⟨rfl, rfl⟩
    · simp only [Layer.rampDuck_rests h, and_self]
    · refine if_congr Iff.rfl rfl ?_
      rw [Layer.rampFade]
      cases l.state <;> rfl

end Sys2Proof.Machine
end

section
/-! PROOF. The mix of a zone: its contributions, their sum, and the zone computation (O60). -/

namespace Sys2Proof.Machine

/-! ## Contributions and their sum (R86, R89, R92) -/

/-- A layer of total level `level`: what silences it, and what it contributes otherwise (R55, R89). -/
theorem Layer.contribution_at {l : Layer} {s : Sample} {gain volume level : Int}
    (htotal : gain + volume + l.duck + l.fade = level) :
    (l.state = .held ∨ l.silent = true ∨ l.duck = -385 ∨ level < -384 → l.contribution s gain volume = 0) ∧
    (l.state ≠ .held → l.silent = false → l.duck ≠ -385 → -384 ≤ level →
      l.contribution s gain volume = scale s.toInt (min 32 level)) := by
  rw [Layer.contribution, htotal, mute]
  refine ⟨fun hsilent => if_pos hsilent, fun hheld hpopped hmute hlevel => if_neg ?_⟩
  simp [hheld, hpopped, hmute, hlevel]

/-- A layer adds at most 2^25 in size, whatever its source and its level. -/
theorem Layer.contribution_bounds (l : Layer) (s : Sample) (gain volume : Int) :
    -33554432 ≤ l.contribution s gain volume ∧ l.contribution s gain volume ≤ 33554432 := by
  rw [Layer.contribution]
  split
  · decide
  · next h =>
    have audible : -384 ≤ gain + volume + l.duck + l.fade := by
      by_contra hlow
      exact h (.inr (.inr (.inr (by omega))))
    obtain ⟨e, f, k, split⟩ := exists_levelSplit (l := min 32 (gain + volume + l.duck + l.fade)) (by omega) (by omega)
    have within := split.scale_bounds s.toInt
    have low := s.le_toInt
    have high := s.toInt_lt
    norm_num at low high
    omega

theorem Node.contributionOf_live {n : Node} {l : Layer} {b : Binding} (hb : n.binding l.binding = some b) (r : Zone) :
    n.contributionOf r l =
      l.contribution (n.sourceSample b.source) b.gain (r.volumeTerm (n.classRecord l.cls).volume) := by
  rw [Node.contributionOf, hb]

theorem Node.contributionOf_free {n : Node} {l : Layer} (hb : n.binding l.binding = none) (r : Zone) :
    n.contributionOf r l = 0 := by
  rw [Node.contributionOf, hb]

theorem Node.contributionOf_bounds (n : Node) (r : Zone) (l : Layer) :
    -33554432 ≤ n.contributionOf r l ∧ n.contributionOf r l ≤ 33554432 := by
  cases hb : n.binding l.binding with
  | none => rw [Node.contributionOf_free hb]; decide
  | some b => rw [Node.contributionOf_live hb]; exact Layer.contribution_bounds _ _ _ _

theorem Node.accumulate_eq_sum (n : Node) (z : Nat) :
    n.accumulate z = ((n.stack z).map (n.contributionOf (n.zone z))).sum := List.sum_eq_foldl.symm

theorem Node.accumulate_bounds (n : Node) (z : Nat) :
    -(33554432 * ((n.stack z).length : Int)) ≤ n.accumulate z ∧ n.accumulate z ≤ 33554432 * ((n.stack z).length : Int) := by
  rw [Node.accumulate_eq_sum]
  generalize n.stack z = st
  induction st with
  | nil => simp
  | cons l st ih =>
    have := n.contributionOf_bounds (n.zone z) l
    simp only [List.map_cons, List.sum_cons, List.length_cons]
    omega

/-! ## The zone computation (R81, R93) -/

theorem Layer.endDue_of_high {l : Layer} (h : l.state = .releasing → l.fresh = false → -380 < l.fade) :
    l.endDue = false := by
  refine Bool.eq_false_iff.2 fun hdue => ?_
  simp only [Layer.endDue, Bool.and_eq_true, Bool.not_eq_true', decide_eq_true_eq] at hdue
  obtain ⟨⟨hstate, hfresh⟩, hfallen⟩ := hdue
  have high := h hstate hfresh
  rw [Layer.fallen, fadeBottom] at hfallen
  omega

/-- Where no fade ends, a zone computation is its ramps and its output. -/
theorem Node.computeZone_of_stay {n : Node} {z : Nat}
    (h : ∀ l ∈ n.stack z, l.state = .releasing → l.fresh = false → -380 < l.fade) :
    n.computeZone z = (n.zoneRamps z).modZone z fun r => r.emit ((n.zoneRamps z).accumulate z) := by
  have stay : n.fadedOut z = [] := by
    simp only [Node.fadedOut, List.map_eq_nil_iff, List.filter_eq_nil_iff]
    intro l hl
    simp [Layer.endDue_of_high (h l hl)]
  rw [Node.computeZone, stay]
  rfl

theorem Node.zoneRamps_stack {n : Node} {z : Nat} (hz : z < n.mixer.zones.length) :
    (n.zoneRamps z).stack z = (n.stack z).map (n.rampLayer z) := by
  rw [Node.stack, Node.zoneRamps, Node.zone_modZone_self _ _ _ hz]
  rfl

theorem Node.zoneRamps_clips {n : Node} {z : Nat} (hz : z < n.mixer.zones.length) :
    ((n.zoneRamps z).zone z).clips = (n.zone z).clips := by
  rw [Node.zoneRamps, Node.zone_modZone_self _ _ _ hz]
  show (if n.took (.volume z) then n.zone z else (n.zone z).rampVolume).clips = _
  split
  · rfl
  · exact Zone.rampVolume_clips _

/-- The clamp leaves a sum alone exactly when it is a 24-bit sample. -/
theorem clampSample_eq_iff (x : Int) : clampSample x = x ↔ -8388608 ≤ x ∧ x ≤ 8388607 := by
  rw [clampSample, clampInt]
  omega

/-- Settles O60: the sum by its terms, a layer's term by what silences it, and the output of a computation that removes no
layer. -/
theorem accumulatorIsTheSum : Obligations.AccumulatorIsTheSum := by
  refine ⟨fun n z => ⟨fun hempty => ?empty, fun order hperm => ?order, n.accumulate_bounds z⟩,
    fun n r l => ⟨fun hb => n.contributionOf_free hb r, fun b hb => ?layer⟩, fun n z hok hz hstay => ?output⟩
  case empty =>
    rw [Node.accumulate_eq_sum, hempty]
    rfl
  case order =>
    rw [Node.accumulate_eq_sum]
    exact (hperm.map _).sum_eq.symm
  case layer =>
    rw [Node.contributionOf_live hb]
    refine Layer.contribution_at ?_
    show _ = b.gain + l.duck + l.fade + r.volumeTerm (n.classRecord l.cls).volume
    ring
  case output =>
    have hlen : z < n.mixer.zones.length := by
      rw [Node.zones_len hok]
      omega
    have hlen' : z < (n.zoneRamps z).mixer.zones.length := by simpa [Node.zoneRamps] using hlen
    have emitted : (n.computeZone z).zone z = ((n.zoneRamps z).zone z).emit ((n.zoneRamps z).accumulate z) := by
      rw [Node.computeZone_of_stay hstay, Node.zone_modZone_self _ _ _ hlen']
    refine ⟨?_, ?_, ?_⟩
    · rw [emitted]
      rfl
    · rw [emitted]
      simp only [Zone.emit, clampSample_eq_iff, Node.zoneRamps_clips hlen]
    · rw [Node.stack, emitted]
      exact Node.zoneRamps_stack hlen

end Sys2Proof.Machine
end

section
/-! PROOF. SET ALARM (O18) and the tone generators (O44). -/

namespace Sys2Proof.Machine

/-! ## SET ALARM (R96) -/

theorem Alarm.allows_iff {a : Alarm} {src : Nat} (h : src ≠ 0) :
    a.allows src = true ↔ (∀ x ∈ a.authority, x = 0) ∨ src ∈ a.authority := by
  simp [Alarm.allows, h]

/-- Settles O18: the three checks pass, and the response goes into the reservation that the command made. -/
theorem setAlarmSetsTheSource : Obligations.SetAlarmSetsTheSource := by
  intro who code mask s h hcode hmaster hallowed
  have hsrc : who.src ≠ 0 := by
    simp only [Node.ready, Bool.and_eq_true, decide_eq_true_eq] at h
    omega
  have allowed : s.node.alarm.allows who.src = true := (Alarm.allows_iff hsrc).2 hallowed
  refine (onNode_taken h _).trans ?_
  simp only [Node.setAlarm, if_neg (Nat.not_lt.2 hcode), Node.reserve_ring, Node.reserve_alarm, hmaster, allowed, Bool.not_true,
    Bool.false_eq_true, if_false]
  rfl

/-! ## A generator's step (R108, R109) -/

/-- A generator that has given an output at its step: the sample and the phase after it (R108). -/
def Generator.played (g : Generator) (s : Signal) : Generator :=
  { g with
    out := g.sample (g.stepOf s)
    phase := g.phase + BitVec.ofNat 24 (if (g.stepOf s).hz = 0 then 0 else phaseIncrement (g.stepOf s).hz) }

/-- The last output of a step: the phase moves on, and the generator goes to the next step (R109). -/
theorem Generator.tick_stepDue {g : Generator} {s : Signal} (h : g.stepDue s = true) : g.tick s = (g.played s).nextStep s := by
  have running : g.state = .running := by
    simp only [Generator.stepDue, Bool.and_eq_true, decide_eq_true_eq] at h
    exact h.1
  simp [Generator.tick, Generator.played, running, h]

/-- The next step writes step, timer and state alone. -/
theorem Generator.nextStep_rest (g : Generator) (s : Signal) :
    (g.nextStep s).timer = 0 ∧ (g.nextStep s).signal = g.signal ∧ (g.nextStep s).phase = g.phase := by
  unfold Generator.nextStep Generator.wrap
  repeat' split
  all_goals exact ⟨rfl, rfl, rfl⟩

theorem Generator.nextStep_within {g : Generator} {s : Signal} (h : g.step + 1 < s.steps.length) :
    g.nextStep s = { g with timer := 0, step := g.step + 1 } := if_pos h

theorem Generator.nextStep_last {g : Generator} {s : Signal} (h : ¬g.step + 1 < s.steps.length) :
    g.nextStep s = { g with timer := 0 }.wrap s := if_neg h

/-- A generator's frame time is its own tick; the output of its channel does not change it. -/
theorem Node.generator_genTick {n : Node} {g : Gen} (h : ∀ a, g = .channel a → a < n.alarm.channels.length) :
    (n.genTick g).generator g = (n.generator g).tick (n.alarm.signalOf (n.generator g).signal) := by
  cases g with
  | callTone => rfl
  | channel a =>
    have ha := h a rfl
    rw [Node.genTick, Node.channelTick, Node.latchChannel, Node.generator, Node.channel_modChannel_self _ _ _ (by simpa using ha),
      Node.channel_modChannel_self _ _ _ ha]
    rfl

theorem Node.genTick_eq (n : Node) (g : Gen) : n.genTick g = { n with alarm := (n.genTick g).alarm } := by
  cases g <;> rfl

theorem exec_generatorStepEnd {s : State} {g : Gen} (h : s.node.stepEndDue g = true) :
    exec (.generatorStepEnd g) s = .next { s with node := (s.node.genTick g).mark (.generator g) } :=
  onNode_due (due := fun n => n.stepEndDue g) (work := fun n => (n.genTick g).mark (.generator g)) h

/-- Settles O44: the row is due, and the three places to which a generator can go after a step. -/
theorem generatorStepsGoOn : Obligations.GeneratorStepsGoOn := by
  intro g s hinv hg hstarted huntaken n old sig st hrun hlast
  have due : old.stepDue sig = true := by
    simp only [Generator.stepDue, hrun, decide_true, Bool.true_and, decide_eq_true_eq]
    exact hlast
  have rowDue : n.stepEndDue g = true := by
    simp only [Node.stepEndDue, Node.started, Node.took, List.contains_eq_mem, decide_eq_true_eq, Bool.and_eq_true,
      Bool.not_eq_true', decide_eq_false_iff_not]
    exact ⟨⟨hstarted, huntaken⟩, due⟩
  have ticked : ((n.genTick g).mark (.generator g)).generator g = old.tick sig := by
    have hlen : ∀ a, g = .channel a → a < n.alarm.channels.length := by
      intro a ha
      have := hg a ha
      have := Node.channels_len hinv
      show a < s.node.alarm.channels.length
      omega
    rw [← Node.generator_genTick hlen]
    cases g <;> rfl
  refine ⟨_, exec_generatorStepEnd rowDue, ?_, ?_⟩
  · rw [n.genTick_eq g]
    rfl
  rw [ticked, Generator.tick_stepDue due]
  obtain ⟨htimer, hsignal, hphase⟩ := Generator.nextStep_rest (old.played sig) sig
  refine ⟨htimer, hsignal, hphase, ?_⟩
  by_cases hnext : old.step + 1 < sig.steps.length
  · rw [if_pos hnext, Generator.nextStep_within (g := old.played sig) hnext]
    exact ⟨rfl, hrun⟩
  · rw [if_neg hnext, Generator.nextStep_last (g := old.played sig) hnext, Generator.wrap]
    cases sig.loop with
    | some l => exact ⟨rfl, hrun⟩
    | none => rfl

end Sys2Proof.Machine
end

section
/-! PROOF. P1's voice service on an alarm channel: the end of a period (O45) and the end of a VOICE (O46). -/

namespace Sys2Proof.Machine

/-! ## Channels after an update -/

/-- A channel is read from the Alarm Engine alone. -/
theorem Node.channel_of_alarm {m n : Node} (h : m.alarm = n.alarm) (a : Nat) : m.channel a = n.channel a := by
  rw [Node.channel, h]
  rfl

theorem Node.modChannel_eq_set (n : Node) (a : Nat) (f : Channel → Channel) : n.modChannel a f =
    { n with alarm := { n.alarm with channels := n.alarm.channels.set a (f (n.channel a)) } } := by
  rw [Node.modChannel, modify_eq_set_getD _ _ .reset]
  rfl

/-- Of the two channels, the first with a property. -/
theorem find?_channels {p : Nat → Bool} {a : Nat} (ha : a ≤ 1) (hp : p a = true) (hfirst : a = 1 → p 0 = false) :
    [0, 1].find? p = some a := by
  obtain rfl | rfl : a = 0 ∨ a = 1 := by omega
  · simp [hp]
  · simp [hp, hfirst rfl]

/-- The channel in VOICE is read from the phases of the channels. -/
theorem Node.voiceChannel_of_phases {m n : Node} (h : ∀ a, (m.channel a).phase = (n.channel a).phase) :
    m.voiceChannel = n.voiceChannel := by simp only [Node.voiceChannel, h]

theorem Node.phase_modChannel (n : Node) (a b : Nat) {f : Channel → Channel} (h : ∀ c, (f c).phase = c.phase) :
    ((n.modChannel a f).channel b).phase = (n.channel b).phase := by
  simp only [Node.channel, Node.modChannel, List.getD_eq_getElem?_getD, List.getElem?_modify]
  cases n.alarm.channels[b]? with
  | none => rfl
  | some c =>
    by_cases hab : a = b
    · simp [hab, h]
    · simp [hab]

theorem Node.voiceChannel_modChannel (n : Node) (a : Nat) {f : Channel → Channel} (h : ∀ c, (f c).phase = c.phase) :
    (n.modChannel a f).voiceChannel = n.voiceChannel :=
  Node.voiceChannel_of_phases fun b => n.phase_modChannel a b h

theorem Node.voiceChannel_le {n : Node} {a : Nat} (h : n.voiceChannel = some a) : a ≤ 1 := by
  have mem := List.mem_of_find?_eq_some h
  simp only [List.mem_cons, List.not_mem_nil, or_false] at mem
  omega

/-! ## What leaves the Alarm Engine alone -/

@[simp] theorem Node.notice_alarm (n : Node) (dest kind : Nat) (payload : List Byte) :
    (n.notice dest kind payload).alarm = n.alarm := by rw [Node.notice_lane]

@[simp] theorem Node.popLayers_alarm (n : Node) (id : Option Nat) (owner : Owner) : (n.popLayers id owner).alarm = n.alarm :=
  congrArg OutsideCalls.alarm (n.popLayers_outsideCalls id owner)

@[simp] theorem Node.jobFinish_alarm (n : Node) (p : Nat) : (n.jobFinish p).alarm = n.alarm := by
  simp [Node.jobFinish, Node.modJob, Node.playerDone]

@[simp] theorem Node.jobEnd_alarm (n : Node) (p : Nat) (why : JobEnd) : (n.jobEnd p why).alarm = n.alarm := by
  have release (m : Node) (u : User) : (m.releaseClaim u).alarm = m.alarm := rfl
  unfold Node.jobEnd
  dsimp only
  repeat' split
  all_goals simp [Node.modJob, release]

@[simp] theorem Node.preempt_alarm (n : Node) : n.preempt.alarm = n.alarm := by
  unfold Node.preempt
  split
  · exact n.jobEnd_alarm 1 _
  · rfl

/-! ## A batch of a read stream (R155) -/

/-- A batch writes the players alone. -/
theorem Node.deliverBatch_eq (n : Node) (p : Nat) (stalled : Nat → Bool) :
    n.deliverBatch p stalled = { n with players := (n.deliverBatch p stalled).players } := by
  unfold Node.deliverBatch
  dsimp only
  split <;> rfl

/-- A batch appends to the queue of its player. -/
theorem Node.deliverBatch_player {n : Node} {p : Nat} (hp : p < n.players.players.length) (stalled : Nat → Bool) :
    ∃ got next, (n.deliverBatch p stalled).player p =
      { n.player p with queue := (n.player p).queue ++ got, streamNext := next } := by
  unfold Node.deliverBatch
  dsimp only
  split
  · exact ⟨_, _, n.player_modPlayer_self p _ hp⟩
  · exact ⟨[], (n.player p).streamNext, by rw [List.append_nil]⟩

@[simp] theorem Node.deliverFirst_alarm (n : Node) (p : Nat) : (n.deliverFirst p).alarm = n.alarm := by
  rw [Node.deliverFirst, Node.deliverBatch_eq]

/-- A player's frame time writes the players alone. -/
theorem Node.playerTick_eq (n : Node) (p : Nat) : n.playerTick p = { n with players := (n.playerTick p).players } := by
  rw [Node.playerTick, Node.deliverFrame, Node.deliverBatch_eq]
  rfl

/-- A player's frame time: the batch of its stream, then its output. -/
theorem Node.playerTick_player {n : Node} {p : Nat} (hp : p < n.players.players.length) :
    ∃ got next, (n.playerTick p).player p =
      Player.frame { n.player p with queue := (n.player p).queue ++ got, streamNext := next } := by
  obtain ⟨got, next, h⟩ := Node.deliverBatch_player hp fun b => (n.bankBusy b && !n.took .headStart) || n.took (.flash b)
  refine ⟨got, next, ?_⟩
  rw [Node.playerTick, Node.player_modPlayer_self, Node.deliverFrame, h]
  rw [Node.deliverFrame, Node.deliverBatch]
  dsimp only
  split
  · simpa using hp
  · exact hp

/-! ## The end of a period (R115, R116) -/

theorem Node.periodDue_of {n : Node} {a : Nat} (hphase : (n.channel a).phase = .signal)
    (htimer : (n.codeEntry (n.channel a).code).period * 48000 ≤ (n.channel a).timer + 1) (htaken : Share.period a ∉ n.early) :
    n.periodDue a = true := by
  simp only [Node.periodDue, Node.period, Node.took, hphase, htimer, List.contains_eq_mem, htaken, decide_true, decide_false,
    Bool.not_false, Bool.and_self]

/-- When one period alone is due, it alone ends. -/
theorem Node.periodsDue_alone {n : Node} {a : Nat} (ha : a ≤ 1) (hdue : n.periodDue a = true)
    (hother : n.periodDue (1 - a) = false) : n.periodsDue = [a] := by
  unfold Node.periodsDue Node.channelOrder
  obtain rfl | rfl : a = 0 ∨ a = 1 := by omega
  all_goals
    simp only [Nat.sub_zero, Nat.sub_self] at hother
    split <;> simp [hdue, hother]

/-- A period that ends alone: P1's share of the frame time is taken when the end begins a VOICE. -/
theorem Node.periodsEnd_alone {n : Node} {a : Nat} (ha : a ≤ 1) (hdue : n.periodDue a = true)
    (hother : n.periodDue (1 - a) = false) : n.periodsEnd =
      if n.voiceChannel.isNone && (n.periodEnd a).voiceChannel.isSome then (n.periodEndEarly a).mark (.player 1)
      else n.periodEndEarly a := by
  rw [Node.periodsEnd, Node.periodsDue_alone ha hdue hother]
  rfl

theorem exec_alarmPeriodEnd {s : State} {a : Nat} (hstarted : s.node.mgmt.node ≠ .starting) (hdue : s.node.periodDue a = true) :
    exec (.alarmPeriodEnd a) s = .next { s with node := s.node.periodsEnd } :=
  onNode_due (due := fun n => n.started && n.periodDue a) (work := Node.periodsEnd) (by simp [Node.started, hstarted, hdue])

theorem Node.voiceEntry_voiceChannel {n : Node} {a : Nat} {e : Entry} (h : n.voiceEntry a = some e) : n.voiceChannel = none := by
  unfold Node.voiceEntry at h
  repeat' split at h
  · cases h
  · cases h
  · rename_i hfree
    cases hc : n.voiceChannel with
    | none => rfl
    | some b => exact absurd (by simp [hc]) hfree

/-- Without a voice entry, another period begins. -/
theorem Node.periodsEnd_again {n : Node} {a : Nat} (ha : a ≤ 1) (hdue : n.periodDue a = true)
    (hother : n.periodDue (1 - a) = false) (hentry : n.voiceEntry a = none) : n.periodsEnd =
      (n.modChannel a fun c => { c with timer := 0 }).mark (.period a) := by
  have ends : n.periodEnd a = n.modChannel a fun c => { c with timer := 0 } := by rw [Node.periodEnd, hentry]
  have silent : (n.voiceChannel.isNone && (n.periodEnd a).voiceChannel.isSome) = false := by
    rw [ends, Node.voiceChannel_modChannel (f := fun c => { c with timer := 0 }) _ _ fun _ => rfl]
    cases n.voiceChannel <;> rfl
  rw [Node.periodsEnd_alone ha hdue hother, silent, Node.periodEndEarly, ends]
  rfl

/-- A VOICE begins at channel `a`: the channels, and P1 with the message. -/
theorem Node.voiceBegin_reads {n : Node} {a : Nat} (ha : a ≤ 1) (hok : n.ok = true) (e : Entry) :
    (n.voiceBegin a e).channel a = (n.channel a).beginVoice ∧
      (n.voiceBegin a e).channel (1 - a) = n.channel (1 - a) ∧
      ((n.voiceBegin a e).player 1).voice =
        some { start := e.start, length := e.length, trim := e.trim, position := 0, half := .first } ∧
      ((n.voiceBegin a e).player 1).streamOpen = true := by
  have hpre : n.preempt.ok = true := (Node.ok_of_kept n.preempt_kept).trans hok
  have hlen : a < n.preempt.alarm.channels.length := by
    rw [Node.channels_len hpre]
    omega
  have hother : a ≠ 1 - a := by omega
  have alarm (b : Nat) : n.preempt.channel b = n.channel b := Node.channel_of_alarm n.preempt_alarm b
  have hp : 1 < n.preempt.players.players.length := by simp [Node.players_len hpre]
  have hplayer :
      1 < ((n.preempt.modPlayer 1 fun p => p.beginVoice e).modChannel a Channel.beginVoice).players.players.length := by
    simpa using hp
  have channel (b : Nat) : (n.voiceBegin a e).channel b =
      ((n.preempt.modPlayer 1 fun p => p.beginVoice e).modChannel a Channel.beginVoice).channel b :=
    Node.channel_of_alarm (Node.deliverFirst_alarm _ _) b
  obtain ⟨got, next, delivered⟩ := Node.deliverBatch_player hplayer
    ((n.preempt.modPlayer 1 fun p => p.beginVoice e).modChannel a Channel.beginVoice).bankBusy
  have begun : ((n.preempt.modPlayer 1 fun p => p.beginVoice e).modChannel a Channel.beginVoice).player 1 =
      (n.preempt.player 1).beginVoice e := Node.player_modPlayer_self _ 1 _ hp
  rw [begun] at delivered
  refine ⟨?_, ?_, ?_, ?_⟩
  · rw [channel, Node.channel_modChannel_self (n.preempt.modPlayer 1 fun p => p.beginVoice e) a _ hlen, ← alarm]
    rfl
  · rw [channel, Node.channel_modChannel_other _ _ _ _ hother, ← alarm]
    rfl
  · exact congrArg Player.voice delivered
  · exact congrArg Player.streamOpen delivered

/-- With a voice entry, VOICE begins; what else the row writes is its shares of the frame time. -/
theorem Node.periodsEnd_voice {n : Node} {a : Nat} {e : Entry} (ha : a ≤ 1) (hdue : n.periodDue a = true)
    (hother : n.periodDue (1 - a) = false) (hentry : n.voiceEntry a = some e) :
    n.periodsEnd = { n.voiceBegin a e with early := n.periodsEnd.early } := by
  have ends : n.periodEnd a = n.voiceBegin a e := by rw [Node.periodEnd, hentry]
  rw [Node.periodsEnd_alone ha hdue hother, Node.periodEndEarly, ends]
  split <;> rfl

/-! ## The end of a VOICE (R117) -/

theorem Node.considerHeads_empty {n : Node} (h : n.library.ops = []) (fuel : Nat) : Node.considerHeads fuel n = n := by
  cases fuel with
  | zero => rfl
  | succ fuel => simp [Node.considerHeads, h]

/-- With an empty operation queue there is no head to consider. -/
theorem Node.considerHead_empty {n : Node} (h : n.library.ops = []) : n.considerHead = n := Node.considerHeads_empty h _

/-- The channel that comes back from VOICE (R117). -/
def Channel.endVoice (c : Channel) : Channel :=
  { c with phase := .signal, timer := 0, gen := c.gen.restart (c.signal.getD 0) }

theorem Node.voiceEnd_on {n : Node} {a : Nat} (hc : n.voiceChannel = some a) (hops : n.library.ops = []) :
    n.voiceEnd = n.voiceStop.modChannel a Channel.endVoice := by
  rw [Node.voiceEnd, hc]
  exact Node.considerHead_empty hops

/-- The last output of a voice phase: the SECOND frame of the last pair, its sample in the queue (R153, R154). -/
theorem Player.frame_voiceLast {p : Player} {v : Voice} {sample : LibSample} {rest : List LibSample} (hv : p.voice = some v)
    (hhalf : v.half = .second) (hlast : v.position + 1 = v.length) (hpair : p.underrunPair = false)
    (hq : p.queue = sample :: rest) : p.frame.passDone = true ∧ p.frame.voice.isSome = true := by
  simp [Player.frame, Player.voiceFrame, Pair.step, Pair.next, hv, hhalf, hlast, hpair, hq]

/-- Marks note shares of the frame time and change nothing else. -/
theorem foldl_mark (l : List Share) (n : Node) : l.foldl Node.mark n = { n with early := (l.foldl Node.mark n).early } := by
  induction l generalizing n with
  | nil => rfl
  | cons sh l ih => exact ih (n.mark sh)

theorem Node.startedSince_eq (n old : Node) : n.startedSince old = { n with early := (n.startedSince old).early } := by
  unfold Node.startedSince
  rw [foldl_mark]
  split <;> rfl

@[simp] theorem Node.startedSince_ring (n old : Node) : (n.startedSince old).ring = n.ring := by rw [Node.startedSince_eq]
@[simp] theorem Node.startedSince_alarm (n old : Node) : (n.startedSince old).alarm = n.alarm := by rw [Node.startedSince_eq]

/-- A part whose VOICE has ended on channel `a` with its last output: P1 freed, the channel back in SIGNAL. -/
def Node.backInSignal (n : Node) (a : Nat) : Node := (n.latchChannel a).voiceStop.modChannel a Channel.endVoice

theorem Node.backInSignal_player {n : Node} (hp : 1 < n.players.players.length) (a : Nat) : (n.backInSignal a).player 1 =
    { (n.player 1).closeStream with voice := none, underrunPair := false, out := 0 } :=
  (n.latchChannel a).player_modPlayer_self 1 _ hp

theorem Node.backInSignal_channel {n : Node} {a : Nat} (ha : a < n.alarm.channels.length) : (n.backInSignal a).channel a =
    Channel.endVoice { n.channel a with out := (n.channel a).output n.voiceSample } := by
  have latched : a < (n.latchChannel a).voiceStop.alarm.channels.length := by
    show a < (n.alarm.channels.modify a _).length
    rwa [List.length_modify]
  rw [Node.backInSignal, Node.channel_modChannel_self _ _ _ latched]
  exact congrArg _ (n.channel_modChannel_self a _ ha)

/-- A voice that ends on its channel: the channel's last output, and the end of VOICE. -/
theorem Node.voiceLast_on {n : Node} {a : Nat} (hc : n.voiceChannel = some a) (hops : n.library.ops = [])
    (hdone : (n.player 1).passDone = true) (hvoice : (n.player 1).voice.isSome = true) :
    n.voiceLast = (n.backInSignal a).mark (.generator (.channel a)) := by
  have latched : (n.latchChannel a).voiceChannel = some a :=
    (n.voiceChannel_modChannel (f := fun c => { c with out := c.output n.voiceSample }) a fun _ => rfl).trans hc
  have ends : (n.latchChannel a).playerEnd 1 = (n.latchChannel a).voiceEnd := (if_pos hdone).trans (if_pos hvoice)
  rw [Node.voiceLast, hc]
  dsimp only
  rw [ends, Node.voiceEnd_on latched hops]
  rfl

theorem Node.voiceEndRow_due {n : Node} (hstarted : n.mgmt.node ≠ .starting) (htaken : Share.player 1 ∉ n.early)
    (hvoice : (n.player 1).voice.isSome = true) (hdone : ((n.playerTick 1).player 1).passDone = true) :
    n.voiceEndRow = ((n.playerTick 1).voiceLast.startedSince n).mark (.player 1) := by
  rw [Node.voiceEndRow, if_pos]
  simp [Node.started, Node.took, hstarted, htaken, hvoice, hdone]

theorem exec_voiceEnd {s : State} (hstarted : s.node.mgmt.node ≠ .starting) (htaken : Share.player 1 ∉ s.node.early)
    (hvoice : (s.node.player 1).voice.isSome = true) (hdone : ((s.node.playerTick 1).player 1).passDone = true) :
    exec .voiceEnd s =
      .next { s with node := ((s.node.playerTick 1).voiceLast.startedSince s.node).mark (.player 1) } := by
  rw [← Node.voiceEndRow_due hstarted htaken hvoice hdone]
  rfl

/-- Settles O46: P1's frame ends the pass, and the end of VOICE frees P1 and restarts the channel. -/
theorem voiceEndsInSignal : Obligations.VoiceEndsInSignal := by
  intro v sample rest a s hinv hstarted htaken hops hchannel hvoice hhalf hlast hpair hqueue n
  have hp : 1 < n.players.players.length := by simp [n, Node.players_len hinv]
  obtain ⟨got, next, ticked⟩ := Node.playerTick_player hp
  obtain ⟨hdone, hserves⟩ : ((n.playerTick 1).player 1).passDone = true ∧ ((n.playerTick 1).player 1).voice.isSome = true := by
    rw [ticked]
    refine Player.frame_voiceLast (sample := sample) (rest := rest ++ got) hvoice hhalf hlast hpair ?_
    show (s.node.player 1).queue ++ got = _
    rw [hqueue, List.cons_append]
  have row := exec_voiceEnd hstarted htaken (by rw [hvoice]; rfl) hdone
  have tickedOk : (n.playerTick 1).ok = true := (Node.ok_of_kept (n.playerTick_kept 1)).trans hinv
  have outside := n.playerTick_eq 1
  generalize n.playerTick 1 = t at row hdone hserves tickedOk outside
  have alarm : t.alarm = n.alarm := by rw [outside]
  have serving : t.voiceChannel = some a :=
    (Node.voiceChannel_of_phases fun b => by rw [Node.channel_of_alarm alarm]).trans hchannel
  rw [Node.voiceLast_on serving (by rw [outside]; exact hops) hdone hserves, Node.startedSince_eq] at row
  have player := Node.backInSignal_player (n := t) (by rw [Node.players_len tickedOk]; decide) a
  have channel := Node.backInSignal_channel (n := t) (a := a) (by
    have := Node.voiceChannel_le hchannel
    rw [Node.channels_len tickedOk]
    omega)
  rw [Node.channel_of_alarm alarm] at channel
  exact ⟨_, row, congrArg Player.voice player, congrArg Player.streamOpen player, congrArg Player.queue player,
    congrArg Channel.phase channel, congrArg Channel.timer channel, (congrArg Channel.signal channel).trans rfl,
    congrArg (fun c => c.gen.state) channel, congrArg (fun c => c.gen.step) channel, congrArg (fun c => c.gen.timer) channel,
    congrArg (fun c => c.gen.phase) channel⟩

end Sys2Proof.Machine
end

section
/-! PROOF. Alarm channels: the end of a period, the signals of a recomputation, and the alarm layer of a zone (O45). -/

namespace Sys2Proof.Machine

/-! ## Signals on channels (R112) -/

/-- Channel `a` is active with the signal. -/
def Node.carries (n : Node) (a signal : Nat) : Prop :=
  ((n.channel a).phase = .signal ∨ (n.channel a).phase = .voice) ∧ (n.channel a).signal = some signal

theorem Channel.active_iff (c : Channel) : c.active = true ↔ c.phase = .signal ∨ c.phase = .voice := by
  simp [Channel.active]

theorem Node.carries_iff (n : Node) (a signal : Nat) :
    ((n.channel a).active && (n.channel a).signal == some signal) = true ↔ n.carries a signal := by
  rw [Bool.and_eq_true, Channel.active_iff, beq_iff_eq]
  rfl

theorem Node.holdsOneOf_iff (n : Node) (top : List (Nat × Nat)) (a : Nat) :
    n.holdsOneOf top a = true ↔ ∃ x ∈ top, n.carries a x.1 := by
  simp only [Node.holdsOneOf, Bool.and_eq_true, Channel.active_iff, List.any_eq_true, beq_iff_eq]
  exact ⟨fun ⟨hactive, x, hx, hs⟩ => ⟨x, hx, hactive, hs⟩, fun ⟨x, hx, hactive, hs⟩ => ⟨hactive, x, hx, hs⟩⟩

theorem Node.channelOf_carrying {n : Node} {a signal : Nat} (ha : a ≤ 1) (hon : n.carries a signal)
    (hfirst : a = 1 → ¬n.carries 0 signal) : n.channelOf signal = some a :=
  find?_channels ha ((n.carries_iff a signal).2 hon) fun h => by
    rw [← Bool.not_eq_true, Node.carries_iff]
    exact hfirst h

theorem Node.channelOf_none {n : Node} {signal : Nat} (h0 : ¬n.carries 0 signal) (h1 : ¬n.carries 1 signal) :
    n.channelOf signal = none := by
  rw [← Node.carries_iff] at h0 h1
  simp [Node.channelOf, h0, h1]

/-- A needed signal that is on a channel stays there, and the channel takes its code. -/
theorem Node.keepSignal_on {n : Node} {x : Nat × Nat} {a : Nat} (h : n.channelOf x.1 = some a) :
    n.keepSignal x = n.modChannel a fun c => { c with code := x.2 } := by rw [Node.keepSignal, h]

theorem Node.keepSignal_off {n : Node} {x : Nat × Nat} (h : n.channelOf x.1 = none) : n.keepSignal x = n := by
  rw [Node.keepSignal, h]

theorem Node.placeSignal_on {n : Node} {x : Nat × Nat} {a : Nat} (top : List (Nat × Nat)) (h : n.channelOf x.1 = some a) :
    Node.placeSignal top n x = n := by
  rw [Node.placeSignal, h]
  rfl

/-- A needed signal on no channel takes the lowest channel without a needed signal. -/
theorem Node.placeSignal_off {n : Node} {x : Nat × Nat} {top : List (Nat × Nat)} {a : Nat} (h : n.channelOf x.1 = none)
    (ha : a ≤ 1) (hfree : n.holdsOneOf top a = false) (hfirst : a = 1 → n.holdsOneOf top 0 = true) :
    Node.placeSignal top n x = n.takeSignal a x := by
  have lowest : ([0, 1].find? fun a => !n.holdsOneOf top a) = some a :=
    find?_channels ha (by rw [hfree]; rfl) fun h => by rw [hfirst h]; rfl
  rw [Node.placeSignal, h, lowest]
  rfl

theorem Node.leaveVoice_quiet {n : Node} {a : Nat} (h : (n.channel a).phase ≠ .voice) : n.leaveVoice a = n := if_neg h

theorem Node.giveUpSignal_keeps {n : Node} {top : List (Nat × Nat)} {a : Nat}
    (h : n.holdsOneOf top a = true ∨ (n.channel a).active = false) : Node.giveUpSignal top n a = n := by
  rw [Node.giveUpSignal, if_neg]
  rcases h with h | h <;> simp [h]

/-- A channel in SIGNAL without a needed signal drains its layers, or becomes IDLE where it has none. -/
theorem Node.giveUpSignal_signal {n : Node} {top : List (Nat × Nat)} {a : Nat} (hfree : n.holdsOneOf top a = false)
    (hphase : (n.channel a).phase = .signal) : Node.giveUpSignal top n a =
      if (n.binding (alarmId a)).isSome then n.modChannel a fun c => { c with phase := .draining, signal := none, code := 0 }
      else n.modChannel a fun c => { c with phase := .idle, signal := none, code := 0, gen := c.gen.toIdle } := by
  have quiet : n.leaveVoice a = n := Node.leaveVoice_quiet (by simp [hphase])
  rw [Node.giveUpSignal, if_pos (by simp [Channel.active, hphase, hfree])]
  dsimp only
  rw [quiet]

/-! ## The layer of a zone (R113) -/

/-- The part whose alarm layer in a zone has left the channel it is on. -/
def Node.withoutChannel (n : Node) (z : Nat) : Node :=
  match n.currentChannel z with
  | some a => n.removeZone a z
  | none => n

theorem Node.placeZone_leaves {n : Node} {needed : List (Nat × Nat)} {z : Nat}
    (h : n.desiredChannel needed z ≠ n.currentChannel z) (hnone : n.desiredChannel needed z = none) :
    Node.placeZone needed n z = n.withoutChannel z := by
  refine (if_neg h).trans ?_
  rw [hnone]
  rfl

theorem Node.placeZone_moves {n : Node} {needed : List (Nat × Nat)} {z a : Nat}
    (h : n.desiredChannel needed z ≠ n.currentChannel z) (hsome : n.desiredChannel needed z = some a) :
    Node.placeZone needed n z = (n.withoutChannel z).addZone a z := by
  refine (if_neg h).trans ?_
  rw [hsome]
  rfl

/-- Settles O45: the end of one period, then the steps of R112 on one channel, then R113 in one zone. -/
theorem alarmPeriodsEnd : Obligations.AlarmPeriodsEnd := by
  refine ⟨?periods, ?signals, ?layers⟩
  case periods =>
    intro a s hinv ha hstarted htaken n c hphase htimer hother
    have due : n.periodDue a = true := Node.periodDue_of hphase htimer htaken
    refine ⟨fun hentry => ?_, fun e hentry => ?_⟩
    · rw [exec_alarmPeriodEnd hstarted due, Node.periodsEnd_again ha due hother hentry, Node.modChannel_eq_set]
      rfl
    · obtain ⟨hchannel, hrest, hvoice, hopen⟩ := Node.voiceBegin_reads ha hinv e
      refine ⟨_, exec_alarmPeriodEnd hstarted due, ?_⟩
      rw [Node.periodsEnd_voice ha due hother hentry]
      exact ⟨hchannel, hrest, hvoice, hopen⟩
  case signals =>
    intro n top a signal code ha hlen c put on needed
    have needs (b : Nat) : n.holdsOneOf top b = true ↔ needed b := n.holdsOneOf_iff top b
    have needless {b : Nat} (h : ¬needed b) : n.holdsOneOf top b = false := by rwa [← Bool.not_eq_true, needs]
    refine ⟨fun hon hfirst => ?keep, fun h0 h1 => ?absent, fun h0 h1 hfree hfirst hquiet => ?place, fun h => ?stay,
      fun hfree hphase => ?giveUp⟩
    case keep =>
      have at_a : n.channelOf signal = some a := Node.channelOf_carrying ha hon hfirst
      refine ⟨?_, Node.placeSignal_on top at_a⟩
      rw [Node.keepSignal_on at_a, Node.modChannel_eq_set]
    case absent => exact Node.keepSignal_off (x := (signal, code)) (Node.channelOf_none h0 h1)
    case place =>
      rw [Node.placeSignal_off (x := (signal, code)) (Node.channelOf_none h0 h1) ha (needless hfree)
        fun h => (needs 0).2 (hfirst h), Node.takeSignal, Node.leaveVoice_quiet hquiet, Node.modChannel_eq_set]
      rfl
    case stay =>
      refine Node.giveUpSignal_keeps (h.imp (needs a).2 fun ⟨hs, hv⟩ => ?_)
      rw [← Bool.not_eq_true, Channel.active_iff]
      exact not_or.2 ⟨hs, hv⟩
    case giveUp =>
      rw [Node.giveUpSignal_signal (needless hfree) hphase]
      refine ⟨fun hb => ?_, fun hb => ?_⟩
      · rw [if_pos (show (n.binding (alarmId a)).isSome = true from hb), Node.modChannel_eq_set]
      · rw [if_neg (by simp [show n.binding (alarmId a) = none from hb]), Node.modChannel_eq_set]
        rfl
  case layers =>
    intro n needed z desired current left
    exact ⟨fun h => if_pos h, Node.placeZone_leaves, fun a h hsome => Node.placeZone_moves h hsome⟩

end Sys2Proof.Machine
end

section
/-! PROOF. Change events: contacts, the confirmed word, and the fire-zone table (O43). -/

namespace Sys2Proof.Machine

/-! ## A change event and its recomputation (R100, R104) -/

/-- A change event writes the change record and the lane. -/
theorem Node.changeEvent_eq (n : Node) (e : ChangeEntry) : n.changeEvent e = { n with
    alarm := { n.alarm with
      latest := some e, firstUnread := n.alarm.firstUnread <|> some e, unread := min 255 (n.alarm.unread + 1) }
    lane := (n.changeEvent e).lane } := by
  rw [Node.changeEvent, Node.generalNotice_eq]

/-- Nodes that agree in the fixed fields agree in the Alarm Engine but for its table, channels and call-tone generator. -/
theorem Node.alarm_of_fixed {m n : Node} (h : m.fixed = n.fixed) :
    m.alarm = { n.alarm with table := m.alarm.table, channels := m.alarm.channels, callGen := m.alarm.callGen } := by
  have settings : { m.alarm with table := [], channels := [], callGen := .reset } =
      { n.alarm with table := [], channels := [], callGen := .reset } := congrArg Fixed.alarm h
  rw [← show { ({ m.alarm with table := [], channels := [], callGen := .reset } : Alarm) with
    table := m.alarm.table, channels := m.alarm.channels, callGen := m.alarm.callGen } = m.alarm from rfl, settings]

/-- With an empty operation queue, a change event and its recomputation leave of the Alarm Engine what the change event leaves,
but for the table, the channels and the call-tone generator. -/
theorem Node.changeAndRecompute_alarm {n : Node} (hops : n.library.ops = []) (e : ChangeEntry) :
    ∃ table channels callGen, (n.changeAndRecompute e).alarm =
      { (n.changeEvent e).alarm with table := table, channels := channels, callGen := callGen } := by
  have idle : (n.changeEvent e).recomputeAlarm.library.ops = [] := by
    rw [Node.library_of_fixed (Node.recomputeAlarm_fixed _), Node.changeEvent_eq]
    exact hops
  rw [Node.changeAndRecompute, Node.alarmEvent, Node.considerHead_empty idle]
  exact ⟨_, _, _, Node.alarm_of_fixed (Node.recomputeAlarm_fixed _)⟩

/-! ## Contacts (R99) -/

theorem exec_contactDebounce {s : State} {k : Nat} (hstarted : s.node.mgmt.node ≠ .starting)
    (hdiffers : s.node.contactDiffers k = true) (hrun : 959 ≤ (s.node.contact k).run) :
    exec (.contactDebounce k) s = .next { s with node := (s.node.contactChange k).startedSince s.node } :=
  onNode_due (due := fun n => n.started && n.contactDiffers k && decide (960 ≤ (n.contact k).run + 1))
    (work := fun n => (n.contactChange k).startedSince n) (by simp [Node.started, hstarted, hdiffers, hrun])

/-- The change of a contact's taken state, in the Alarm Engine (R99, R100). -/
theorem Node.contactChange_alarm {n : Node} (hops : n.library.ops = []) (k : Nat) :
    let e : ChangeEntry :=
      { source := contactSource k, code := if (n.contact k).asserted then 0 else (n.contact k).code, mask := (n.contact k).mask
        issuer := 0, stamp := (n.contact k).stamp }
    ∃ table channels callGen, (n.contactChange k).alarm = { n.alarm with
      contacts := n.alarm.contacts.modify k fun c => { c with asserted := !c.asserted, run := 0 }
      latest := some e, firstUnread := n.alarm.firstUnread <|> some e, unread := min 255 (n.alarm.unread + 1)
      table := table, channels := channels, callGen := callGen } := by
  intro e
  obtain ⟨table, channels, callGen, h⟩ := Node.changeAndRecompute_alarm
    (n := n.modContact k fun c => { c with asserted := !c.asserted, run := 0 }) hops e
  refine ⟨table, channels, callGen, h.trans ?_⟩
  rw [Node.changeEvent_eq]
  rfl

theorem Node.contactChange_ring (n : Node) (k : Nat) : (n.contactChange k).ring = n.ring := by
  rw [Node.contactChange, Node.changeAndRecompute, Node.alarmEvent_ring, Node.changeEvent_ring, Node.modContact_ring]

/-! ## First matches in an order -/

/-- An element that is not before `a` in a list has no lower place than `a`. -/
theorem idxOf_le_of_notMem {α : Type} [DecidableEq α] {before after : List α} {a x : α} (hx : x ∉ before) :
    (before ++ a :: after).idxOf a ≤ (before ++ a :: after).idxOf x := by
  rw [List.idxOf_append_of_notMem hx]
  by_cases ha : a ∈ before
  · rw [List.idxOf_append_of_mem ha]
    exact (List.idxOf_lt_length_of_mem ha).le.trans (Nat.le_add_right _ _)
  · rw [List.idxOf_append_of_notMem ha, List.idxOf_cons_self]
    omega

/-- The first match in a list ordered by `R` is related to every other. -/
theorem rel_of_find? {α : Type} {R : α → α → Prop} {l : List α} {p : α → Bool} {x : α} (hl : l.Pairwise R)
    (hx : l.find? p = some x) :
    ∀ y ∈ l, p y = true → y = x ∨ R x y := by
  intro y hy hpy
  obtain ⟨-, before, after, rfl, hbefore⟩ := List.find?_eq_some_iff_append.1 hx
  rw [List.pairwise_append, List.pairwise_cons] at hl
  rcases List.mem_append.1 hy with hy | hy
  · exact absurd hpy (by simpa using hbefore y hy)
  · rcases List.mem_cons.1 hy with rfl | hy
    · exact .inl rfl
    · exact .inr (hl.2.1.1 y hy)

/-! ## The fire-zone table (R103) -/

/-- The claim of a contact on a fire zone. -/
def Contact.claim (c : Contact) (f : Nat) (source : AlarmFrom) : List FireEntry :=
  if c.enabled && c.asserted && c.mask.getLsbD f then [⟨c.code, source⟩] else []

/-- The claim of the confirmed word on a fire zone. -/
def AlarmWord.claim (w : AlarmWord) (f : Nat) : List FireEntry := if w.set && w.mask.getLsbD f then [⟨w.code, .ring⟩] else []

theorem Contact.mem_claim (c : Contact) (f : Nat) (source : AlarmFrom) (e : FireEntry) : e ∈ c.claim f source ↔
    e = ⟨c.code, source⟩ ∧ c.enabled = true ∧ c.asserted = true ∧ c.mask.getLsbD f = true := by
  rw [Contact.claim]
  split <;> simp_all

theorem AlarmWord.mem_claim (w : AlarmWord) (f : Nat) (e : FireEntry) : e ∈ w.claim f ↔
    e = ⟨w.code, .ring⟩ ∧ w.set = true ∧ w.mask.getLsbD f = true := by
  rw [AlarmWord.claim]
  split <;> simp_all

/-- The claims on a fire zone are those of the confirmed word and of the two contacts, in that order. -/
theorem Alarm.claims_eq {a : Alarm} (h : a.contacts.length = 2) (f : Nat) : a.claims f =
    a.confirmed.claim f ++ ((a.contacts.getD 0 .reset).claim f .c0 ++ (a.contacts.getD 1 .reset).claim f .c1) := by
  obtain ⟨c0, c1, hc⟩ := List.length_eq_two.1 h
  simp [Alarm.claims, hc, AlarmWord.claim, Contact.claim, contactSource, List.filterMap_eq_flatMap_toList,
    apply_ite Option.toList]

/-- The order of sources among claims with one code (R103). -/
def AlarmFrom.place : AlarmFrom → Nat
  | .ring => 0
  | .c0 => 1
  | .c1 => 2
  | .none => 3

/-- The claims on a fire zone stand in the order of their sources. -/
theorem Alarm.claims_ordered {a : Alarm} (h : a.contacts.length = 2) (f : Nat) :
    (a.claims f).Pairwise fun x y => x.source.place < y.source.place := by
  rw [Alarm.claims_eq h]
  simp only [AlarmWord.claim, Contact.claim]
  repeat' split
  all_goals simp [AlarmFrom.place]

/-- The entry of a fire zone: none where no code of the order claims it, else the first claim with the highest code. -/
theorem Alarm.fireEntry_cases (a : Alarm) (f : Nat) :
    (a.fireEntry f = ⟨0, .none⟩ ∧ ∀ e ∈ a.claims f, e.code ∉ precedence) ∨
    (a.claims f).find? (fun e => e.code = (a.fireEntry f).code) = some (a.fireEntry f) ∧ (a.fireEntry f).code ∈ precedence ∧
      ∀ e ∈ a.claims f, e.code ∈ precedence → precedence.idxOf (a.fireEntry f).code ≤ precedence.idxOf e.code := by
  rw [Alarm.fireEntry]
  cases h : precedence.findSome? fun code => (a.claims f).find? fun e => e.code = code with
  | none =>
    refine .inl ⟨rfl, fun e he hcode => ?_⟩
    have absent := List.findSome?_eq_none_iff.1 h e.code hcode
    simpa using List.find?_eq_none.1 absent e he
  | some x =>
    obtain ⟨before, code, after, hl, hx, hbefore⟩ := List.findSome?_eq_some_iff.1 h
    have hcode : x.code = code := by simpa using List.find?_some hx
    refine .inr ⟨?_, ?_, fun e he hc => ?_⟩
    · rw [Option.getD_some, hcode]
      exact hx
    · rw [Option.getD_some, hcode, hl]
      simp
    · rw [Option.getD_some, hcode, hl]
      refine idxOf_le_of_notMem fun hmem => ?_
      simpa using List.find?_eq_none.1 (hbefore e.code hmem) e he

/-! ## The effective code of a zone (R104) -/

theorem Node.zoneCode_one {n : Node} {z f : Nat} (h : (n.zone z).fireZone = .one f) :
    n.zoneCode z = (n.alarm.table.getD f ⟨0, .none⟩).code := by rw [Node.zoneCode, h]

theorem Node.zoneCode_all {n : Node} {z : Nat} (h : (n.zone z).fireZone = .all) :
    n.zoneCode z = (precedence.find? fun code => n.alarm.table.any fun e => e.code = code).getD 0 := by rw [Node.zoneCode, h]

/-- For all fire zones, the effective code is the highest in the table. -/
theorem Node.zoneCode_highest {n : Node} {z : Nat} (h : (n.zone z).fireZone = .all) {e : FireEntry} (he : e ∈ n.alarm.table)
    (hcode : e.code ∈ precedence) : n.zoneCode z ∈ precedence ∧ (∃ x ∈ n.alarm.table, x.code = n.zoneCode z) ∧
      ∀ x ∈ n.alarm.table, x.code ∈ precedence → precedence.idxOf (n.zoneCode z) ≤ precedence.idxOf x.code := by
  rw [Node.zoneCode_all h]
  cases hfind : precedence.find? fun code => n.alarm.table.any fun e => e.code = code with
  | none =>
    refine absurd (List.find?_eq_none.1 hfind e.code hcode) (not_not.2 ?_)
    simpa using ⟨e, he, rfl⟩
  | some code =>
    obtain ⟨hp, before, after, hl, hbefore⟩ := List.find?_eq_some_iff_append.1 hfind
    refine ⟨List.mem_of_find?_eq_some hfind, by simpa using hp, fun x hx hc => ?_⟩
    rw [Option.getD_some, hl]
    refine idxOf_le_of_notMem fun hmem => ?_
    have := hbefore x.code hmem
    simp at this
    exact this x hx rfl

/-- For all fire zones, a table without a code of the order gives code 0. -/
theorem Node.zoneCode_unclaimed {n : Node} {z : Nat} (h : (n.zone z).fireZone = .all)
    (hnone : ∀ e ∈ n.alarm.table, e.code ∉ precedence) : n.zoneCode z = 0 := by
  rw [Node.zoneCode_all h, List.find?_eq_none.2]
  · rfl
  · intro code hcode hany
    obtain ⟨e, he, hec⟩ := List.any_eq_true.1 hany
    exact hnone e he (of_decide_eq_true hec ▸ hcode)

/-! ## The confirmed word (R97) -/

theorem Node.readWord_unset {w : AlarmWord} (h : w.set = false) (n : Node) : n.readWord w = n := by simp [Node.readWord, h]

theorem Node.readWord_new {n : Node} {w : AlarmWord} (h : w.set = true) (hw : w ≠ n.alarm.candidate) :
    n.readWord w = { n with alarm := { n.alarm with candidate := w } } := by simp [Node.readWord, h, hw]

theorem Node.readWord_known {n : Node} {w : AlarmWord} (h : w.set = true) (hw : w = n.alarm.candidate)
    (hc : w = n.alarm.confirmed) : n.readWord w = n := by
  rw [Node.readWord, if_neg (by simp [h]), if_pos hw, if_pos hc]

theorem Node.readWord_confirms {n : Node} {w : AlarmWord} (h : w.set = true) (hw : w = n.alarm.candidate)
    (hc : w ≠ n.alarm.confirmed) : n.readWord w =
      Node.changeAndRecompute { n with alarm := { n.alarm with confirmed := w } }
        { source := .ring, code := w.code, mask := w.mask, issuer := w.issuer, stamp := n.ring.counter } := by
  rw [Node.readWord, if_neg (by simp [h]), if_pos hw, if_neg hc]

/-- Settles O43: the change of a contact, the reading of a word, the claims on a fire zone, and a zone's code. -/
theorem contactDebounceChangesTheContact : Obligations.ContactDebounceChangesTheContact := by
  refine ⟨?contact, fun n w => ⟨fun h => Node.readWord_unset h n, Node.readWord_new, Node.readWord_known,
    Node.readWord_confirms⟩, ?fire, rfl, fun n z => ⟨fun f => Node.zoneCode_one, fun h =>
    ⟨Node.zoneCode_unclaimed h, fun ⟨e, he, hcode⟩ => Node.zoneCode_highest h he hcode⟩⟩⟩
  case contact =>
    intro k s hinv hk hstarted hops n c high e henabled hdiffers hrun
    have differs : n.contactDiffers k = true := by
      simp only [Node.contactDiffers, Bool.and_eq_true, bne_iff_ne, ne_eq, beq_eq_decide]
      exact ⟨henabled, hdiffers⟩
    have hlen : k < n.alarm.contacts.length := by
      rw [Node.contacts_len hinv]
      omega
    obtain ⟨table, channels, callGen, alarm⟩ := Node.contactChange_alarm hops k
    refine ⟨_, exec_contactDebounce hstarted differs hrun, ?_, ?_, ?_, ?_, ?_, ?_, ?ring⟩
    case ring => rw [Node.startedSince_ring, Node.contactChange_ring]
    all_goals
      simp only [Node.contact, Node.startedSince_alarm]
      rw [alarm]
    · exact getD_modify_self _ _ _ hlen
    · exact getD_modify_other _ _ _ (by omega)
    all_goals rfl
  case fire =>
    intro a f hlen claim e
    have claims (source : AlarmFrom) (code : Nat) : claim source code ↔ (⟨code, source⟩ : FireEntry) ∈ a.claims f := by
      rw [Alarm.claims_eq hlen]
      simp only [List.mem_append, AlarmWord.mem_claim, Contact.mem_claim, FireEntry.mk.injEq]
      cases source <;> simp [claim] <;> tauto
    rcases a.fireEntry_cases f with ⟨unclaimed, free⟩ | ⟨first, high, highest⟩
    · have empty : e = ⟨0, .none⟩ := unclaimed
      refine ⟨fun _ => ⟨by rw [empty], fun source code hcode hclaim => free _ ((claims _ _).1 hclaim) hcode⟩, fun h => ?_⟩
      rw [empty] at h
      exact absurd rfl h
    · have mem : e ∈ a.claims f := List.mem_of_find?_eq_some first
      have claimed : claim e.source e.code := (claims _ _).2 mem
      have order (source : AlarmFrom) (h : claim source e.code) : e.source.place ≤ source.place := by
        rcases rel_of_find? (Alarm.claims_ordered hlen f) first _ ((claims _ _).1 h) (decide_eq_true rfl) with same | before
        · exact (congrArg (fun x => x.source.place) same).ge
        · exact Nat.le_of_lt before
      refine ⟨fun h => ?_, fun _ => ⟨high, claimed, fun source code h => highest _ ((claims _ _).1 h), fun h => ?_, fun h => ?_⟩⟩
      · rw [h] at claimed
        exact claimed.elim
      · have := order .ring h
        cases hs : e.source <;> simp [hs, AlarmFrom.place] at this ⊢
      · have := order .c0 h
        cases hs : e.source <;> simp [hs, AlarmFrom.place] at this ⊢

end Sys2Proof.Machine
end

section
/-! PROOF. RELOAD SIGNALS and the delivery of the signal sector (O29). -/

namespace Sys2Proof.Machine

/-! ## The delivery (R63, R121) -/

/-- The tables of the Alarm Engine that a signal sector replaces, the contacts apart. -/
def Alarm.tables (a : Alarm) : List Signal × List CodeEntry × List Nat := (a.signals, a.codeMap, a.authority)

theorem Alarm.tables_iff {a : Alarm} {signals : List Signal} {codeMap : List CodeEntry} {authority : List Nat} :
    a.tables = (signals, codeMap, authority) ↔ a.signals = signals ∧ a.codeMap = codeMap ∧ a.authority = authority := by
  simp [Alarm.tables]

/-- A contact takes its new configuration; but for the change record and the lane, nothing else is written. -/
theorem Node.reloadContact_eq (n : Node) (x : Contact × Nat) : ∃ latest firstUnread unread lane, n.reloadContact x = { n with
    alarm := { n.alarm with
      contacts := n.alarm.contacts.modify x.2 fun c => { x.1 with stamp := c.stamp }
      latest := latest, firstUnread := firstUnread, unread := unread }
    lane := lane } := by
  unfold Node.reloadContact
  dsimp only
  split
  · exact ⟨_, _, _, _, Node.changeEvent_eq _ _⟩
  · exact ⟨_, _, _, _, rfl⟩

theorem Node.reloadContact_contacts (n : Node) (x : Contact × Nat) : (n.reloadContact x).alarm.contacts =
    n.alarm.contacts.modify x.2 fun c => { x.1 with stamp := c.stamp } := by
  obtain ⟨_, _, _, _, h⟩ := n.reloadContact_eq x
  rw [h]

theorem Node.reloadContact_tables (n : Node) (x : Contact × Nat) : (n.reloadContact x).alarm.tables = n.alarm.tables := by
  obtain ⟨_, _, _, _, h⟩ := n.reloadContact_eq x
  rw [h]
  rfl

theorem Node.reloadContact_mixer (n : Node) (x : Contact × Nat) : (n.reloadContact x).mixer = n.mixer := by
  obtain ⟨_, _, _, _, h⟩ := n.reloadContact_eq x
  rw [h]

theorem Node.tables_of_fixed {m n : Node} (h : m.fixed = n.fixed) : m.alarm.tables = n.alarm.tables :=
  congrArg (fun x => x.alarm.tables) h

theorem Node.contacts_of_fixed {m n : Node} (h : m.fixed = n.fixed) : m.alarm.contacts = n.alarm.contacts :=
  congrArg (fun x => x.alarm.contacts) h

theorem Node.classes_of_fixed {m n : Node} (h : m.fixed = n.fixed) : m.mixer.classes = n.mixer.classes :=
  congrArg Fixed.classes h

theorem Node.reloadGens_tables (n : Node) : n.reloadGens.alarm.tables = n.alarm.tables := rfl
theorem Node.reloadGens_contacts (n : Node) : n.reloadGens.alarm.contacts = n.alarm.contacts := rfl
theorem Node.reloadGens_mixer (n : Node) : n.reloadGens.mixer = n.mixer := rfl

/-- The part in which a sector's classes and tables have taken effect, its contacts not yet. -/
def Node.withTables (n : Node) (sector : SignalSector) : Node :=
  ((n.setHighClasses sector.classes).classChange [5, 6, 7]).setTables sector

theorem Node.withTables_classes (n : Node) (sector : SignalSector) : (n.withTables sector).mixer.classes =
    n.mixer.classes.mapIdx fun c r => if c < 5 then r else sector.classes.getD (c - 5) r :=
  Node.classes_of_fixed ((n.setHighClasses sector.classes).classChange_fixed [5, 6, 7])

theorem Node.withTables_contacts (n : Node) (sector : SignalSector) : (n.withTables sector).alarm.contacts = n.alarm.contacts :=
  Node.contacts_of_fixed (m := (n.setHighClasses sector.classes).classChange [5, 6, 7]) (n := n.setHighClasses sector.classes)
    (Node.classChange_fixed _ _)

section Delivery

variable {n : Node} {sector : SignalSector} (h : sector.contacts.length = 2)
include h

/-- A delivery of two contacts: its tables, then C0 before C1, then the generators and the recomputation. -/
theorem Node.deliverSector_eq : n.deliverSector sector =
    (((n.withTables sector).reloadContact (sector.contacts.getD 0 .reset, 0)).reloadContact
      (sector.contacts.getD 1 .reset, 1)).reloadGens.recomputeAlarm := by
  obtain ⟨c0, c1, hc⟩ := List.length_eq_two.1 h
  simp only [Node.deliverSector, hc]
  rfl

theorem Node.deliverSector_tables :
    (n.deliverSector sector).alarm.tables = (sector.signals, sector.codeMap, sector.authority) := by
  rw [Node.deliverSector_eq h, Node.tables_of_fixed (Node.recomputeAlarm_fixed _), Node.reloadGens_tables,
    Node.reloadContact_tables, Node.reloadContact_tables]
  rfl

theorem Node.deliverSector_classes : (n.deliverSector sector).mixer.classes =
    n.mixer.classes.mapIdx fun c r => if c < 5 then r else sector.classes.getD (c - 5) r := by
  rw [Node.deliverSector_eq h, Node.classes_of_fixed (Node.recomputeAlarm_fixed _), Node.reloadGens_mixer,
    Node.reloadContact_mixer, Node.reloadContact_mixer, Node.withTables_classes]

/-- A part's contacts after a delivery: the new configuration at rest, with the stamp that each had. -/
theorem Node.deliverSector_contact (hlen : n.alarm.contacts.length = 2) {k : Nat} (hk : k < 2) :
    (n.deliverSector sector).contact k = { sector.contacts.getD k .reset with stamp := (n.contact k).stamp } := by
  rw [Node.contact, Node.deliverSector_eq h, Node.contacts_of_fixed (Node.recomputeAlarm_fixed _), Node.reloadGens_contacts,
    Node.reloadContact_contacts, Node.reloadContact_contacts, Node.withTables_contacts]
  obtain ⟨d0, d1, hd⟩ := List.length_eq_two.1 hlen
  obtain rfl | rfl : k = 0 ∨ k = 1 := by omega
  all_goals simp [Node.contact, hd]

end Delivery

/-! ## The command (R177) -/

theorem Node.address_of_kept {m n : Node} (h : m.kept = n.kept) : m.mgmt.address = n.mgmt.address := congrArg Kept.address h

/-- The operation of a RELOAD SIGNALS. -/
def reloadOp (who : Req) : FlashOp := newOp .reload 0 0 [] who

/-- The operation of a RELOAD SIGNALS leaves the queue as it is carried out. -/
theorem Node.reloadAtHead_ops (n : Node) (op : FlashOp) : (n.reloadAtHead op).library.ops = n.library.ops.tail := by
  have finish (m : Node) (status : Status) : (m.finishOp op status []).library.ops = m.library.ops.tail := rfl
  unfold Node.reloadAtHead
  repeat' split
  · exact finish _ _
  · rw [finish, Node.deliverSector_library]
  · exact finish _ _

/-- With no active alarm channel and an empty queue, RELOAD SIGNALS is carried out at once. -/
theorem Node.takeReload_empty {n : Node} (who : Req) (halarm : n.alarmActive = false) (hops : n.library.ops = []) :
    n.takeReload who = (n.setOps [reloadOp who]).reloadAtHead (reloadOp who) := by
  have done : ((n.setOps [reloadOp who]).reloadAtHead (reloadOp who)).library.ops = [] := Node.reloadAtHead_ops _ _
  simp only [Node.takeReload, halarm, Node.opsFull, hops, List.length_nil, Bool.false_eq_true, if_false, Node.enqueueOp,
    List.nil_append]
  exact Node.considerHeads_empty done 1

section AtHead

variable {n : Node} (halarm : n.alarmActive = false) (op : FlashOp)
include halarm

/-- An image that is not taken is refused. -/
theorem Node.reloadAtHead_mismatch (h : imageTaken n.signalImage 0x51 = false) :
    n.reloadAtHead op = n.finishOp op .mismatch [] := by
  rw [Node.reloadAtHead, if_neg (ne_true_of_eq_false halarm), if_neg (ne_true_of_eq_false h)]

/-- An image that is taken is delivered, and then answered. -/
theorem Node.reloadAtHead_delivers (h : imageTaken n.signalImage 0x51 = true) :
    n.reloadAtHead op = (n.deliverSector (SignalSector.ofBytes n.signalImage)).finishOp op .ok [] := by
  rw [Node.reloadAtHead, if_neg (ne_true_of_eq_false halarm), if_pos h]

end AtHead

/-- A response of the head operation is the last packet of the outbound queue. -/
theorem Node.finishOp_last (n : Node) (op : FlashOp) (status : Status) (results : List Byte) :
    (n.finishOp op status results).lane.outbound.getLast? = some (n.answer op.who op.kind.command status results) :=
  List.getLast?_concat

/-- A part that carries out a RELOAD SIGNALS: its response reserved, its operation alone in the queue. -/
def Node.reloading (n : Node) (who : Req) : Node := n.reserve.setOps [reloadOp who]

theorem exec_reloadSignals {s : State} {who : Req} (hready : s.node.ready who = true) (halarm : s.node.alarmActive = false)
    (hops : s.node.library.ops = []) :
    exec (.reloadSignals who) s = .next { s with node := (s.node.reloading who).reloadAtHead (reloadOp who) } :=
  (onNode_taken hready _).trans (congrArg (fun m => Host.Outcome.next { s with node := m })
    (Node.takeReload_empty (n := s.node.reserve) who halarm hops))

/-- Settles O29: the operation is carried out at once, and by the taking of the image it is refused or delivers the sector. -/
theorem reloadReplacesTheTables : Obligations.ReloadReplacesTheTables := by
  intro who s hinv hready halarm hops n sec
  have row := exec_reloadSignals hready halarm hops
  refine ⟨fun htaken => ?_, fun htaken => ?_⟩
  · have queue : n.setOps [] = n := by
      rw [← show s.node.library.ops = [] from hops]
      rfl
    rw [row, Node.reloadAtHead_mismatch (n := n.reloading who) halarm _ htaken]
    exact congrArg (fun m => Host.Outcome.next { s with node := m })
      (((n.setOps []).reserve_respond who 0x34 .mismatch []).trans (by rw [queue]))
  · have contacts : sec.contacts.length = 2 := SignalSector.ofBytes_contacts _
    have records : n.alarm.contacts.length = 2 := Node.contacts_len hinv
    obtain ⟨delivered, hd⟩ : ∃ m, m = (n.reloading who).deliverSector sec := ⟨_, rfl⟩
    obtain ⟨signals, codeMap, authority⟩ : delivered.alarm.signals = sec.signals ∧ delivered.alarm.codeMap = sec.codeMap ∧
        delivered.alarm.authority = sec.authority := by
      rw [hd]
      exact Alarm.tables_iff.1 (Node.deliverSector_tables contacts)
    have classes : delivered.mixer.classes = _ := hd ▸ Node.deliverSector_classes contacts
    have contact {k : Nat} (hk : k < 2) := Node.deliverSector_contact (n := n.reloading who) contacts records hk
    rw [← hd] at contact
    have library : delivered.library = (n.reloading who).library := hd ▸ Node.deliverSector_library _ _
    have address : delivered.mgmt.address = n.mgmt.address := by
      rw [hd]
      exact Node.address_of_kept (Node.deliverSector_kept _ _)
    rw [Node.reloadAtHead_delivers (n := n.reloading who) halarm _ htaken] at row
    change exec _ _ = .next { s with node := ((n.reloading who).deliverSector sec).finishOp _ _ _ } at row
    rw [← hd] at row
    refine ⟨_, row, signals, codeMap, authority, classes, fun k hk => contact hk, ?_, ?_⟩
    · show delivered.library.ops.tail = []
      rw [library]
      rfl
    · rw [Node.finishOp_last, Node.answer, address]
      rfl

end Sys2Proof.Machine
end

section
/-! PROOF. Stations and the taking of a call record: WRITE STATION (O16), CALL (O23) and OFFER (O47). -/

namespace Sys2Proof.Machine

/-! ## Stations (R123, R124) -/

/-- A station is at rest when no record out of IDLE names it (R124). -/
theorem Node.stationBusy_atRest {n : Node} {i : Nat} (h : ∀ c ∈ n.calls.records, c.state ≠ .idle → c.station ≠ i) :
    n.stationBusy i = false := by
  simpa [Node.stationBusy] using h

/-- A number is free when it is 0 or no other station holds it (R124). -/
theorem Node.numberTaken_free {n : Node} {i number : Nat}
    (h : number = 0 ∨ ∀ k, k < 8 → k ≠ i → (n.station k).number ≠ number) : n.numberTaken i number = false := by
  rcases h with rfl | h
  · rfl
  · simp only [Node.numberTaken, Bool.and_eq_false_iff, List.any_eq_false, List.mem_range]
    exact .inr fun k hk => by simpa using h k hk

/-- WRITE STATION that passes its checks writes the record and answers with it. -/
theorem Node.writeStation_atRest {n : Node} {i number mic speaker : Nat} (hi : i ≤ 7) (hnumber : number ≤ 9999) (hmic : mic ≤ 7)
    (hspeaker : speaker ≤ 15) (hfree : n.numberTaken i number = false) (hrest : n.stationBusy i = false) (who : Req) (auto : Bool) :
    n.writeStation who i number mic speaker auto = { n with calls := { n.calls with
      stations := n.calls.stations.set i { number := number, mic := mic, speaker := speaker, auto := auto } } }.respond who 0x24 .ok
        (Station.bytes { number := number, mic := mic, speaker := speaker, auto := auto }) := by
  rw [Node.writeStation, if_neg (by omega), if_neg (by omega), if_neg (by omega), if_neg (by omega),
    if_neg (ne_true_of_eq_false hfree), if_neg (ne_true_of_eq_false hrest)]

/-- Settles O16: the checks pass, and the response goes into the reservation that the command made. -/
theorem writeStationReplacesTheRecord : Obligations.WriteStationReplacesTheRecord := by
  intro who i number mic speaker auto s hready hi hnumber hmic hspeaker hfree hrest n st
  have run := onNode_taken hready fun m => m.writeStation who i number mic speaker auto
  rw [Node.writeStation_atRest (n := s.node.reserve) hi hnumber hmic hspeaker (Node.numberTaken_free hfree)
    (Node.stationBusy_atRest hrest)] at run
  exact run

/-! ## A record taken at a slave (R125, R31) -/

/-- A node whose record `r` is replaced and whose claim of class `cls` for it waits (R31). -/
def Node.recordClaiming (n : Node) (r cls : Nat) (c : CallRecord) : Node := { n with
  calls := { n.calls with records := n.calls.records.set r c }
  slots := { n.slots with
    waiting := n.slots.waiting ++ [n.newClaim (.call r) cls], nextOrder := n.slots.nextOrder + 1 } }

/-- The claim of a record that a slave takes joins the pending list. -/
theorem Node.modCall_claimFor_slave {n : Node} {r : Nat} (hnode : n.mgmt.node = .running) (hclaim : n.hasClaim (.call r) = false)
    (hrole : n.ring.role = false) (take : CallRecord → CallRecord) (cls : Nat) :
    (n.modCall r take).claimFor (.call r) cls = n.recordClaiming r cls (take (n.call r)) := by
  rw [Node.claimFor_slave (n := n.modCall r take) hnode hclaim hrole, Node.modCall, modify_eq_set_getD _ _ .reset]
  rfl

/-- The record in its place. -/
theorem Node.call_recordClaiming {n : Node} {r : Nat} (hr : r < n.calls.records.length) (cls : Nat) (c : CallRecord) :
    (n.recordClaiming r cls c).call r = c := getD_set_self _ _ _ hr

/-- An available record is one of the eight (R125). -/
theorem Node.lt_of_availableRecord {n : Node} {r : Nat} (h : n.availableRecord = some r) : r < 8 :=
  List.mem_range.1 (List.mem_of_find?_eq_some h)

/-! ## CALL (R128) -/

/-- CALL that passes its checks takes the available record, asks for its claim and answers with the call id. -/
theorem Node.placeCall_available {n : Node} {i number r : Nat} (hi : i ≤ 7) (h1 : 1 ≤ number) (h2 : number ≤ 9999)
    (huse : (n.station i).number ≠ 0) (hother : (n.station i).number ≠ number) (hrest : n.stationBusy i = false)
    (hr : n.availableRecord = some r) (who : Req) (priority : Bool) {m : Node}
    (hm : (n.modCall r fun c => c.taken .caller i number (if priority then 7 else 4)).claimFor (.call r)
      (if priority then 7 else 4) = m) :
    n.placeCall who i number priority =
      m.respond who 0x25 .ok [byte (callIdOf r (m.call r)), byte (m.call r).state.code] := by
  rw [Node.placeCall, if_neg (by omega), if_neg (by omega), if_neg huse, if_neg hother, if_neg (ne_true_of_eq_false hrest), hr, ← hm]

/-- Settles O23: the record is taken and its claim waits, and the response reads the call id of the record taken. -/
theorem callTakesARecord : Obligations.CallTakesARecord := by
  intro who i number priority r s hinv hready hi h1 h2 huse hother hrest hr hclaim hrole n cls c claim
  have hlen : r < s.node.reserve.calls.records.length := by
    rw [show s.node.reserve.calls.records.length = 8 from Node.records_len hinv]
    exact Node.lt_of_availableRecord hr
  have hrun : s.node.mgmt.node = .running := Node.ready_running hready
  have taken := Node.modCall_claimFor_slave (n := s.node.reserve) (r := r) hrun hclaim hrole
    (fun c => c.taken .caller i number cls) cls
  have run := onNode_taken hready fun m => m.placeCall who i number priority
  rw [Node.placeCall_available (n := s.node.reserve) hi h1 h2 huse hother (Node.stationBusy_atRest hrest) hr who priority taken,
    Node.call_recordClaiming hlen] at run
  exact run

/-! ## OFFER (R133) -/

/-- The inbound queue without its head. -/
theorem Node.popInbound_eq {n : Node} {p : Packet} {rest : List Packet} (h : n.lane.inbound = p :: rest) :
    n.popInbound = { n with lane := { n.lane with inbound := rest } } := by
  rw [Node.popInbound, h]
  rfl

/-- No layer of an alarm lies in a zone whose non-releasing layers are of classes below 6 (R133). -/
theorem Node.alarmIn_false {n : Node} {z : Nat} (h : ∀ l ∈ n.stack z, l.state ≠ .releasing → l.cls < 6) : n.alarmIn z = false := by
  simpa [Node.alarmIn, Layer.live] using h

/-- An offer with its fields in range to a station in use goes through the checks of that station, unless it is a repeat. -/
theorem Node.takeOffer_called {n : Node} {p : Packet} {i : Nat} (hlen : p.payload.length = 7)
    (hcls : byteAt p.payload 5 = 4 ∨ byteAt p.payload 5 = 7) (hslot : byteAt p.payload 6 ≤ 63)
    (hi : n.calledStation (natOf (slice p.payload 2 2)) = some i) (hnew : n.offerRepeats p = false) :
    n.takeOffer p = n.offerTo i p := by
  have inRange : ¬(p.payload.length ≠ 7 ∨ (byteAt p.payload 5 ≠ 4 ∧ byteAt p.payload 5 ≠ 7) ∨ 63 < byteAt p.payload 6) := by omega
  rw [Node.takeOffer, if_neg inRange, hi]
  exact if_neg (ne_true_of_eq_false hnew)

/-- An offer to a station at rest is accepted when a record is available and no alarm and no limit stands in its zone. -/
theorem Node.offerTo_accepts {n : Node} {p : Packet} {i r : Nat} (hr : n.availableRecord = some r) (hrest : n.stationBusy i = false)
    (halarm : byteAt p.payload 5 = 4 → n.alarmIn (n.station i).speaker = false)
    (hlimit : byteAt p.payload 5 = 7 → liveCount (n.stack (n.station i).speaker) 7 < (n.classRecord 7).limit) :
    n.offerTo i p = n.acceptOffer r i p := by
  have noAlarm : ¬(byteAt p.payload 5 = 4 ∧ n.alarmIn (n.station i).speaker = true) :=
    fun ⟨h4, h⟩ => ne_true_of_eq_false (halarm h4) h
  have room : ¬(byteAt p.payload 5 = 7 ∧ (n.classRecord 7).limit ≤ liveCount (n.stack (n.station i).speaker) 7) :=
    fun ⟨h7, h⟩ => Nat.not_lt.2 h (hlimit h7)
  rw [Node.offerTo, hr]
  dsimp only
  rw [if_neg (ne_true_of_eq_false hrest), if_neg noAlarm, if_neg room]

theorem exec_offer {s : State} {m : Node} (h : s.node.takeSignalling 0x90 Node.takeOffer = m) :
    exec .offer s = .next { s with node := m } := h ▸ rfl

/-- Settles O47: the offer passes the checks, and the record that accepts it is taken as for a CALL. -/
theorem offerTakesARecord : Obligations.OfferTakesARecord := by
  intro p rest i r s hinv hinbound hkind hrun hheld hlen n cls z hcls hslot hi hnew hr hrest halarm hlimit hrole hclaim c claim
  have accepted : n.popInbound.takeOffer p = n.popInbound.acceptOffer r i p :=
    (Node.takeOffer_called (n := n.popInbound) hlen hcls hslot hi hnew).trans (Node.offerTo_accepts (n := n.popInbound) hr hrest
      (fun h4 => Node.alarmIn_false (n := n.popInbound) (halarm h4)) hlimit)
  have taken : n.popInbound.acceptOffer r i p = n.popInbound.recordClaiming r cls c :=
    Node.modCall_claimFor_slave (n := n.popInbound) hrun hclaim hrole _ cls
  rw [exec_offer ((Node.takeSignalling_head hinbound hrun hheld hkind _).trans (accepted.trans taken)),
    Node.popInbound_eq hinbound]
  rfl

end Sys2Proof.Machine
end

section
/-! PROOF. What a call hears: RINGING and REJECT at a caller in OFFERING (O48), and the answer that connects a call or ends it
(O24). -/

namespace Sys2Proof.Machine

/-! ## A caller in OFFERING (R130) -/

theorem exec_ringing {s : State} {m : Node} (h : s.node.takeSignalling 0x91 Node.takeRinging = m) :
    exec .ringing s = .next { s with node := m } := h ▸ rfl

theorem exec_answered {s : State} {m : Node} (h : s.node.takeSignalling 0x92 Node.takeAnswered = m) :
    exec .answered s = .next { s with node := m } := h ▸ rfl

theorem CallRecord.offers_iff (c : CallRecord) : c.offers = true ↔ c.role = .caller ∧ c.state = .offering := by
  simp [CallRecord.offers]

/-- A RINGING with its fields in range at a caller in OFFERING is its first. -/
theorem Node.takeRinging_first {n : Node} {p : Packet} {r : Nat} (hlen : p.payload.length = 3) (hslot : byteAt p.payload 2 ≤ 63)
    (hid : n.recordOf (byteAt p.payload 0) = some r) (hoffers : (n.call r).offers = true) :
    n.takeRinging p = n.firstRinging r p := by
  have inRange : ¬(p.payload.length ≠ 3 ∨ 63 < byteAt p.payload 2) := by omega
  rw [Node.takeRinging, if_neg inRange, hid]
  exact if_pos hoffers

/-- A push for a call leaves the table of records its length. -/
theorem Node.lt_records_callPush {n : Node} {r : Nat} (h : n.ok = true) (hr : r ≤ 7) (source : Source) :
    r < (n.callPush r source).1.calls.records.length := by
  rw [Node.records_len (Node.ok_of_kept (n.callPush_kept r source) ▸ h)]
  omega

/-- The first RINGING: the record is in ALERTING with the remote, id and slot of the packet, whatever its tone's push does. -/
theorem Node.firstRinging_call {n : Node} {r : Nat} (hok : n.ok = true) (hr : r ≤ 7) (p : Packet) :
    let c := (n.firstRinging r p).call r
    c.state = .alerting ∧ c.remote = some p.src ∧ c.remoteId = some (byteAt p.payload 1) ∧
      c.listen = some (byteAt p.payload 2) ∧ c.path = 0 ∧ c.timer = 0 := by
  intro c
  have written : c = _ := Node.call_modCall_self _ r _ (Node.lt_records_callPush hok hr .callTone)
  rw [written]
  exact ⟨rfl, rfl, rfl, rfl, rfl, rfl⟩

/-- The first RINGING leaves the inbound queue alone. -/
theorem Node.firstRinging_inbound (n : Node) (r : Nat) (p : Packet) : (n.firstRinging r p).lane.inbound = n.lane.inbound :=
  congrArg Fixed.inbound (n.callPush_fixed r .callTone)

/-- A REJECT with a reason of the table at a caller in OFFERING is recorded. -/
theorem Node.takeReject_recorded {n : Node} {p : Packet} {r : Nat} {why : Reason} (hlen : p.payload.length = 4)
    (hwhy : Reason.ofCode (byteAt p.payload 3) = some why) (hid : n.recordOf (byteAt p.payload 0) = some r)
    (hoffers : (n.call r).offers = true) : n.takeReject p = n.modCall r fun c => c.recordReject why := by
  simp [Node.takeReject, hwhy, hid, hlen, hoffers]

/-- The first REJECT stands (R130). -/
theorem CallRecord.recordReject_eq (c : CallRecord) (why : Reason) :
    c.recordReject why = { c with firstReject := if c.firstReject = none then some why else c.firstReject } := by
  rw [CallRecord.recordReject]
  cases c.firstReject <;> rfl

/-- A record that a call id names is one of the eight (R126). -/
theorem Node.le_seven_of_recordOf {n : Node} {id r : Nat} (h : n.recordOf id = some r) : r ≤ 7 :=
  Nat.le_of_lt_succ (List.mem_range.1 (List.mem_of_find?_eq_some h))

/-- Settles O48: the first RINGING writes the record that it finds in OFFERING, and a REJECT its first reason. -/
theorem offeringHearsTheCallee : Obligations.OfferingHearsTheCallee := by
  intro p rest r s hinv hinbound hrun hheld hid hrole hstate n
  have offers : (n.call r).offers = true := (CallRecord.offers_iff _).2 ⟨hrole, hstate⟩
  have popped := Node.popInbound_eq hinbound
  refine ⟨fun hkind hlen hslot => ?_, fun why hkind hlen hwhy => ?_⟩
  · have first : n.takeSignalling 0x91 Node.takeRinging = n.popInbound.firstRinging r p :=
      (Node.takeSignalling_head hinbound hrun hheld hkind _).trans (Node.takeRinging_first hlen hslot hid offers)
    obtain ⟨state, remote, remoteId, listen, path, timer⟩ :=
      Node.firstRinging_call (Node.popInbound_ok hinv) (Node.le_seven_of_recordOf hid) p
    refine ⟨_, exec_ringing first, ?_, state, remote, remoteId, listen, path, timer⟩
    rw [Node.firstRinging_inbound, popped]
  · have recorded : n.takeSignalling 0x93 Node.takeReject = n.popInbound.modCall r fun c => c.recordReject why :=
      (Node.takeSignalling_head hinbound hrun hheld hkind _).trans (Node.takeReject_recorded hlen hwhy hid offers)
    rw [exec_reject recorded, popped, Node.modCall]
    simp only [CallRecord.recordReject_eq]
    rfl

/-! ## The answer (R131, R135) -/

/-- The listen layer pushed for record `r`, once the record is written by `quiet` and its tone popped (R131, R135). -/
def Node.listenPush (n : Node) (r : Nat) (quiet : CallRecord → CallRecord) : Node × Option Nat :=
  ((n.modCall r quiet).popLayers (n.call r).tone (.call r)).callPush r (.ring ((n.call r).listen.getD 0))

theorem Node.listenPush_fixed (n : Node) (r : Nat) (quiet : CallRecord → CallRecord) : (n.listenPush r quiet).1.fixed = n.fixed := by
  simp [Node.listenPush]

theorem Node.listenPush_ok (n : Node) (r : Nat) (quiet : CallRecord → CallRecord) : (n.listenPush r quiet).1.ok = n.ok :=
  Node.ok_of_kept (by simp [Node.listenPush])

/-- A push that gives no binding leaves the record as `quiet` wrote it. -/
theorem Node.listenPush_none {n : Node} {r : Nat} {quiet : CallRecord → CallRecord} (hr : r < n.calls.records.length)
    (h : (n.listenPush r quiet).2 = none) : (n.listenPush r quiet).1.call r = quiet (n.call r) := by
  rw [Node.listenPush, Node.callPush_none h, Node.call, Node.popLayers_calls]
  exact n.call_modCall_self r quiet hr

/-- The push of a listen layer leaves the table of records its length. -/
theorem Node.lt_records_listenPush {n : Node} {r : Nat} (hok : n.ok = true) (hr : r ≤ 7) (quiet : CallRecord → CallRecord) :
    r < (n.listenPush r quiet).1.calls.records.length := by
  rw [Node.records_len ((n.listenPush_ok r quiet).trans hok)]
  omega

/-- A record in a call whose push gave no binding ends its call with CAPACITY (R131, R135). -/
theorem Node.listenPush_callEnd {n : Node} {r : Nat} {quiet : CallRecord → CallRecord} (hok : n.ok = true) (hr : r ≤ 7)
    (hlive : (quiet (n.call r)).state ≠ .idle) (h : (n.listenPush r quiet).2 = none) :
    ((n.listenPush r quiet).1.callEnd r .capacity .here).callEnded r .capacity .here = true := by
  have hlen : r < n.calls.records.length := by rw [Node.records_len hok]; omega
  refine Node.callEnd_ends (Node.lt_records_listenPush hok hr quiet) ?_ .capacity .here
  rwa [Node.listenPush_none hlen h]

/-- What a CALLEE's record loses as its answer is carried out (R135). -/
def CallRecord.answering (c : CallRecord) : CallRecord := { c with answerPending := false, tone := none }

/-- What a CALLER's record loses as its call is answered (R131). -/
def CallRecord.answered (c : CallRecord) : CallRecord := { c with tone := none }

/-- The record of a call that is answered: CONNECTED with the binding of its listen layer (R131, R135). -/
def CallRecord.connect (id : Nat) (c : CallRecord) : CallRecord := { c.enter .connected with listenBinding := some id }

/-- A callee's record awaits the outcome of its ANSWERED (R135). -/
def CallRecord.connectCallee (id : Nat) (c : CallRecord) : CallRecord := { c.connect id with outstanding := .answered }

/-- The ANSWERED packet of record `r` to its caller (R135). -/
def Node.answeredPacket (n : Node) (r : Nat) : Packet :=
  n.signalling ((n.call r).remote.getD 0) 0x92 [byte ((n.call r).remoteId.getD 0), byte (callIdOf r (n.call r))]

/-- An answer is carried out by the push of the listen layer (R135). -/
theorem Node.carryOutAnswer_eq (n : Node) (r : Nat) : n.carryOutAnswer r =
    match (n.listenPush r CallRecord.answering).2 with
    | some id =>
      let connected := (n.listenPush r CallRecord.answering).1.modCall r (CallRecord.connectCallee id)
      connected.sendTied r false { n.answeredPacket r with src := connected.address }
    | none => (n.listenPush r CallRecord.answering).1.callEnd r .capacity .here := rfl

/-- A caller is connected by the push of the listen layer (R131). -/
theorem Node.connectCaller_eq (n : Node) (r : Nat) : n.connectCaller r =
    match (n.listenPush r CallRecord.answered).2 with
    | some id => (n.listenPush r CallRecord.answered).1.modCall r (CallRecord.connect id)
    | none => (n.listenPush r CallRecord.answered).1.callEnd r .capacity .here := rfl

/-- An answer carried out whose push gives a binding: the callee is CONNECTED with it, and its ANSWERED is the last entry of the
send list. -/
theorem Node.carryOutAnswer_connects {n : Node} {r id : Nat} (hok : n.ok = true) (hr : r ≤ 7)
    (h : (n.listenPush r CallRecord.answering).2 = some id) :
    let m := n.carryOutAnswer r
    (m.call r).state = .connected ∧ (m.call r).listenBinding = some id ∧ (m.call r).timer = 0 ∧
      (m.call r).outstanding = .answered ∧ m.calls.sendList.getLast? = some
        { packet := n.answeredPacket r, tie := some { record := r, callId := callIdOf r (m.call r), closing := false } } := by
  obtain ⟨connected, hconnected⟩ : ∃ t, t = (n.listenPush r CallRecord.answering).1.modCall r (CallRecord.connectCallee id) :=
    ⟨_, rfl⟩
  have address : connected.address = n.address := by
    rw [hconnected]
    exact congrArg (fun f => f.mgmt.address) (n.listenPush_fixed r CallRecord.answering)
  have carried : n.carryOutAnswer r = connected.sendTied r false (n.answeredPacket r) := by
    rw [Node.carryOutAnswer_eq, h]
    dsimp only
    rw [← hconnected, address]
    rfl
  have record := Node.call_modCall_self _ r (CallRecord.connectCallee id) (Node.lt_records_listenPush hok hr CallRecord.answering)
  rw [← hconnected] at record
  rw [carried]
  exact ⟨congrArg CallRecord.state record, congrArg CallRecord.listenBinding record, congrArg CallRecord.timer record,
    congrArg CallRecord.outstanding record, List.getLast?_concat⟩

/-- An answer carried out whose push gives no binding ends the call with CAPACITY. -/
theorem Node.carryOutAnswer_ends {n : Node} {r : Nat} (hok : n.ok = true) (hr : r ≤ 7) (hlive : (n.call r).state ≠ .idle)
    (h : (n.listenPush r CallRecord.answering).2 = none) : (n.carryOutAnswer r).callEnded r .capacity .here = true := by
  have carried : n.carryOutAnswer r = (n.listenPush r CallRecord.answering).1.callEnd r .capacity .here := by
    rw [Node.carryOutAnswer_eq, h]
  rw [carried]
  exact Node.listenPush_callEnd hok hr hlive h

/-- An ANSWERED whose push gives a binding: the caller is CONNECTED with it. -/
theorem Node.connectCaller_connects {n : Node} {r id : Nat} (hok : n.ok = true) (hr : r ≤ 7)
    (h : (n.listenPush r CallRecord.answered).2 = some id) :
    let m := n.connectCaller r
    (m.call r).state = .connected ∧ (m.call r).listenBinding = some id ∧ (m.call r).timer = 0 := by
  have connected : n.connectCaller r = (n.listenPush r CallRecord.answered).1.modCall r (CallRecord.connect id) := by
    rw [Node.connectCaller_eq, h]
  have record := Node.call_modCall_self _ r (CallRecord.connect id) (Node.lt_records_listenPush hok hr CallRecord.answered)
  rw [connected]
  exact ⟨congrArg CallRecord.state record, congrArg CallRecord.listenBinding record, congrArg CallRecord.timer record⟩

/-- An ANSWERED whose push gives no binding ends the call with CAPACITY. -/
theorem Node.connectCaller_ends {n : Node} {r : Nat} (hok : n.ok = true) (hr : r ≤ 7) (hlive : (n.call r).state ≠ .idle)
    (h : (n.listenPush r CallRecord.answered).2 = none) : (n.connectCaller r).callEnded r .capacity .here = true := by
  have ended : n.connectCaller r = (n.listenPush r CallRecord.answered).1.callEnd r .capacity .here := by
    rw [Node.connectCaller_eq, h]
  rw [ended]
  exact Node.listenPush_callEnd hok hr hlive h

/-- An ANSWERED that connects its call or ends it leaves the inbound queue alone. -/
theorem Node.connectCaller_inbound (n : Node) (r : Nat) : (n.connectCaller r).lane.inbound = n.lane.inbound := by
  have pushed : (n.listenPush r CallRecord.answered).1.lane.inbound = n.lane.inbound :=
    congrArg Fixed.inbound (n.listenPush_fixed r CallRecord.answered)
  rw [Node.connectCaller_eq]
  split
  · exact pushed
  · exact (congrArg Fixed.inbound (Node.callEnd_fixed _ r .capacity .here)).trans pushed

/-- ANSWER of a callee in RINGING whose answer is not noted answers the call. -/
theorem Node.answerId_ringing {n : Node} {id r : Nat} (hid : n.recordOf id = some r) (hrole : (n.call r).role = .callee)
    (hstate : (n.call r).state = .ringing) (hpending : (n.call r).answerPending = false) (who : Req) :
    n.answerId who id = (n.answerCall r).respond who 0x26 .ok [] := by
  simp [Node.answerId, hid, hrole, hstate, hpending]

/-- ANSWERED of the call's remote at an alerting caller is answered (R131). -/
theorem Node.takeAnswered_alerting {n : Node} {p : Packet} {r : Nat} (hlen : p.payload.length = 2)
    (hid : n.recordOf (byteAt p.payload 0) = some r) (hrole : (n.call r).role = .caller) (hstate : (n.call r).state = .alerting)
    (hmatch : (n.call r).matchesPacket p (byteAt p.payload 1) = true) : n.takeAnswered p = n.connectCaller r := by
  simp [Node.takeAnswered, CallRecord.offers, hlen, hid, hrole, hstate, hmatch]

/-- A response is the last packet of the outbound queue, and is the answer of any part with the same address (R187). -/
theorem Node.respond_last {m n : Node} (h : m.mgmt = n.mgmt) (who : Req) (kind : Nat) (status : Status) (results : List Byte) :
    (m.respond who kind status results).lane.outbound.getLast? = some (n.answer who kind status results) := by
  rw [Node.answer, ← h]
  exact List.getLast?_concat

/-- Settles O24: an answer is noted, or carried out with the push of the listen layer, and an ANSWERED likewise; with a binding
the call is CONNECTED and without one it ends. -/
theorem answersConnectOrEnd : Obligations.AnswersConnectOrEnd := by
  intro r s hinv hr n c given settled
  refine ⟨fun who id hready hid hrole hstate hpending => ?answer,
    fun p rest hinbound hkind hrun hheld hlen hid hrole hstate hmatch => ?answered⟩
  case answer =>
    have run : exec (.answer who id) s =
        .next { s with node := (n.reserve.answerCall r).respond who 0x26 .ok [] } :=
      (onNode_taken hready _).trans (congrArg (fun m => Host.Outcome.next { s with node := m })
        (Node.answerId_ringing (n := n.reserve) hid hrole hstate hpending who))
    refine ⟨fun hout => ?_, fun hout => ?_⟩
    · have noted : n.reserve.answerCall r = n.reserve.modCall r fun c => { c with answerPending := true } := if_neg hout
      rw [run, noted]
      rfl
    · have carried : n.reserve.answerCall r = n.reserve.carryOutAnswer r := if_pos hout
      have last := Node.respond_last (congrArg Fixed.mgmt (n.reserve.carryOutAnswer_fixed r)) who 0x26 .ok []
      rw [carried] at run
      refine ⟨_, run, ?_⟩
      intro push
      have pushed : (n.reserve.listenPush r CallRecord.answering).2 = push := rfl
      clear_value push
      cases push with
      | none =>
        have live : (n.reserve.call r).state ≠ .idle := Node.state_of_recordOf hid
        exact ⟨Node.carryOutAnswer_ends (n := n.reserve) hinv hr live pushed, last, fun h => nomatch h⟩
      | some id =>
        obtain ⟨state, binding, timer, outstanding, sent⟩ := Node.carryOutAnswer_connects (n := n.reserve) hinv hr pushed
        exact ⟨⟨state, binding, timer⟩, last, fun _ => ⟨outstanding, sent⟩⟩
  case answered =>
    have taken : n.takeSignalling 0x92 Node.takeAnswered = n.popInbound.connectCaller r :=
      (Node.takeSignalling_head hinbound (of_decide_eq_true hrun) hheld hkind _).trans
        (Node.takeAnswered_alerting (n := n.popInbound) hlen hid hrole hstate hmatch)
    have hok : n.popInbound.ok = true := Node.popInbound_ok hinv
    have live : (n.popInbound.call r).state ≠ .idle := Node.state_of_recordOf hid
    refine ⟨_, exec_answered taken, ?_, ?_⟩
    · rw [Node.connectCaller_inbound, Node.popInbound_eq hinbound]
    · rw [← Node.popInbound_eq hinbound]
      have pushed : (n.popInbound.listenPush r CallRecord.answered).2 = given n.popInbound fun c => { c with tone := none } := rfl
      generalize given n.popInbound (fun c => { c with tone := none }) = push at pushed
      cases push with
      | none => exact Node.connectCaller_ends hok hr live pushed
      | some id => exact Node.connectCaller_connects hok hr pushed

end Sys2Proof.Machine
end

section
/-! PROOF. The send list and the windows of packets: their hand-off, insertion, stripping and reception (O50). -/

namespace Sys2Proof.Machine

/-! ## The send list (R127, R186) -/

theorem exec_sendListHandoff {s : State} {m : Node} (h : s.node.handOff = m) :
    exec .sendListHandoff s = .next { s with node := m } := h ▸ rfl

theorem Node.handOff_room {n : Node} {e : SendEntry} {rest : List SendEntry} (h : n.calls.sendList = e :: rest)
    (hload : n.load < 7) (hrun : n.running = true) : n.handOff = (n.setSendList rest).enqueue e.packet := by
  rw [Node.handOff, h]
  exact if_pos ⟨hload, hrun⟩

theorem Node.handOff_waits {n : Node} (hload : 7 ≤ n.load) : n.handOff = n := by
  unfold Node.handOff
  split
  · rfl
  · exact if_neg fun h => Nat.not_lt.2 hload h.1

/-! ## What a node does with a window (R181-R184) -/

section Window

variable {n : Node} {lane : List Byte}

/-- The first byte marks a window that carries a packet (R199). -/
def windowOccupied (lane : List Byte) : Prop := lane.getD 0 0 = 0xA1 ∨ lane.getD 0 0 = 0xA2

theorem Occupancy.ofByte_full (h : lane.getD 0 0 = 0xA1) : Occupancy.ofByte (lane.getD 0 0) = .full := by rw [h]; rfl

theorem Occupancy.ofByte_fullSeen (h : lane.getD 0 0 = 0xA2) : Occupancy.ofByte (lane.getD 0 0) = .fullSeen := by rw [h]; rfl

theorem Occupancy.ofByte_empty (h : ¬windowOccupied lane) : Occupancy.ofByte (lane.getD 0 0) = .empty := by
  obtain ⟨full, seen⟩ := not_or.1 h
  rw [Occupancy.ofByte, if_neg full, if_neg seen]

theorem Node.windowJob_insert (h : ¬windowOccupied lane) (hrole : n.ring.role = false) {p : Packet} {rest : List Packet}
    (hout : n.lane.outbound = p :: rest) : n.windowJob lane = .insert p.window := by
  rw [Node.windowJob, Occupancy.ofByte_empty h]
  dsimp only
  rw [if_neg (ne_true_of_eq_false hrole), hout]

theorem Node.windowJob_pass (h : ¬windowOccupied lane) (hidle : n.lane.outbound = [] ∨ n.ring.role = true) :
    n.windowJob lane = .pass := by
  rw [Node.windowJob, Occupancy.ofByte_empty h]
  dsimp only
  rcases hidle with hnone | hrole
  · rw [hnone]
    exact ite_self _
  · rw [if_pos hrole]

theorem Node.windowJob_strip (h : windowOccupied lane) (hmine : byteAt lane 2 = n.mgmt.address) : n.windowJob lane = .strip := by
  rcases h with h | h
  · rw [Node.windowJob, Occupancy.ofByte_full h]
    exact if_pos hmine
  · rw [Node.windowJob, Occupancy.ofByte_fullSeen h]
    exact if_pos hmine

theorem Node.windowJob_full (h : lane.getD 0 0 = 0xA1) (hother : byteAt lane 2 ≠ n.mgmt.address) :
    n.windowJob lane = .receive := by
  rw [Node.windowJob, Occupancy.ofByte_full h]
  exact if_neg hother

theorem Node.windowJob_fullSeen (h : lane.getD 0 0 = 0xA2) (hother : byteAt lane 2 ≠ n.mgmt.address) :
    n.windowJob lane = if n.ring.role then .discard else .receive := by
  rw [Node.windowJob, Occupancy.ofByte_fullSeen h]
  exact if_neg hother

/-- The first frame of a window that a node without one follows: its job is set, and its first bytes are written. -/
theorem Node.laneFrame_starts (hnone : n.lane.follow = none) {job : WindowJob} (hjob : n.windowJob lane = job) (window : Nat) :
    n.laneFrame (8 * window) lane = laneStep
      (n.setFollow (some { window := window, next := 1, bytes := lane, whole := true, job := job }))
      (markSeen n.ring.role job (job.write 0 lane)) := by
  have first : 8 * window % 8 = 0 := Nat.mul_mod_right 8 window
  have number : 8 * window / 8 = window := Nat.mul_div_cancel_left window (by decide)
  rw [Node.laneFrame, hnone]
  dsimp only
  rw [if_pos first, Node.laneStart, number, hjob]

/-- A window is marked FULL_SEEN by a master that receives it alone (R184). -/
theorem markSeen_other {role : Bool} {job : WindowJob} (h : role = false ∨ job ≠ .receive) (lane : List Byte) :
    markSeen role job lane = lane := by
  refine if_neg fun ⟨hrole, hjob⟩ => ?_
  rcases h with h | h
  · exact ne_true_of_eq_false h hrole
  · exact h hjob

variable {f : Follow}

/-- A frame of a followed window before its last is written as the window's job says. -/
theorem Node.laneFrame_amid (hf : n.lane.follow = some f) (h : f.next < 7) (lane : List Byte) :
    (n.laneFrame (8 * f.window + f.next) lane).bytes = f.job.write f.next lane := by
  rw [Node.laneFrame, hf]
  dsimp only
  rw [if_pos rfl, Node.laneDue, if_pos h]
  rfl

/-- The last frame of a followed window ends it. -/
theorem Node.laneFrame_ends (hf : n.lane.follow = some f) (h : f.next = 7) (lane : List Byte) :
    n.laneFrame (8 * f.window + 7) lane = n.laneEnd f lane := by
  rw [Node.laneFrame, hf]
  dsimp only
  rw [if_pos (by rw [h]), Node.laneDue, if_neg (by omega)]

/-- The end of an insertion: its packet leaves the outbound queue if the window is whole (R182). -/
theorem Node.laneEnd_insert {b : List Byte} {p : Packet} {rest : List Packet} (hjob : f.job = .insert b)
    (hout : n.lane.outbound = p :: rest) (hrestart : n.mgmt.restart = none) (lane : List Byte) :
    n.laneEnd f lane = ⟨{ n with lane := { n.lane with
      follow := none, outbound := if f.whole = true then rest else p :: rest } }, slice b 56 8, false⟩ := by
  have stays : (n.setFollow none).headRestarts = false := by
    show (n.mgmt.restart.isSome && _) = false
    rw [hrestart]
    rfl
  rw [Node.laneEnd, hjob]
  dsimp only
  split
  · rw [stays, Node.popOutbound, show (n.setFollow none).lane.outbound = p :: rest from hout]
    rfl
  · rw [← hout]
    rfl

/-- The end of a strip: a whole window's packet has the outcome of its delivery byte (R183, R140). -/
theorem Node.laneEnd_strip (hjob : f.job = .strip) (hwhole : f.whole = true) {lane : List Byte} {p : Packet}
    (hp : Packet.ofWindow (f.bytes ++ lane) = some p) : n.laneEnd f lane =
      laneStep ((n.setFollow none).deliveryOutcome p (Delivery.ofByte (lane.getD 7 0))) (stripEnd lane) := by
  rw [Node.laneEnd, hjob]
  dsimp only
  rw [if_pos hwhole, hp]

end Window

/-- Settles O50: the send list's head by the room, a window by its occupancy, source and place, and the two jobs that end with a
packet by their last frame. -/
theorem sendListHandsOff : Obligations.SendListHandsOff := by
  refine ⟨fun e rest s hrun hlist => ⟨fun hroom => ?_, fun hfull => ?_⟩, fun n window lane hnone _ => ?_⟩
  · exact exec_sendListHandoff (Node.handOff_room hlist hroom (decide_eq_true hrun))
  · exact exec_sendListHandoff (Node.handOff_waits hfull)
  · intro follows occ
    have starts {job : WindowJob} {bytes : List Byte} (hjob : n.windowJob lane = job)
        (hbytes : markSeen n.ring.role job (job.write 0 lane) = bytes) : follows job bytes :=
      hbytes ▸ Node.laneFrame_starts hnone hjob window
    refine ⟨fun p rest hfree hrole hout => ⟨?_, fun m f hf hjob hm hrestart => ⟨fun hnext => ?_, fun hnext => ?_⟩⟩,
      fun hfree hidle => ?_, fun hocc hmine => ?_, fun hseen hother hrole => ?_, fun hfull hother hrole => ?_,
      fun hocc hother hrole => ?_, fun m f hf hjob => ⟨fun hnext => ?_, fun p hnext hwhole hp => ?_⟩⟩
    · exact starts (Node.windowJob_insert hfree hrole hout) (markSeen_other (.inl hrole) _)
    · rw [Node.laneFrame_amid hf hnext, hjob]
      rfl
    · rw [Node.laneFrame_ends hf hnext, Node.laneEnd_insert hjob hm hrestart]
    · exact starts (Node.windowJob_pass hfree hidle) (markSeen_other (.inr (by decide)) _)
    · exact starts (Node.windowJob_strip hocc hmine) (markSeen_other (.inr (by decide)) _)
    · exact starts ((Node.windowJob_fullSeen hseen hother).trans (if_pos hrole)) (markSeen_other (.inr (by decide)) _)
    · exact starts (Node.windowJob_full hfull hother) (if_pos ⟨hrole, rfl⟩)
    · have job : n.windowJob lane = .receive :=
        hocc.elim (fun h => Node.windowJob_full h hother) fun h =>
          (Node.windowJob_fullSeen h hother).trans (if_neg (ne_true_of_eq_false hrole))
      exact starts job (markSeen_other (.inl hrole) _)
    · rw [Node.laneFrame_amid hf hnext, hjob]
      rfl
    · rw [Node.laneFrame_ends hf hnext, Node.laneEnd_strip hjob hwhole hp]
      rfl

end Sys2Proof.Machine
end

section
/-! PROOF. The end of a job: what it leaves alone, and STOP (O27). -/

namespace Sys2Proof.Machine

/-! ## What the end of a job leaves alone (R158, R159) -/

/-- A player is read from the Player Unit alone. -/
theorem Node.player_of_players {m n : Node} (h : m.players = n.players) (q : Nat) : m.player q = n.player q :=
  congrArg (fun l : Players => l.players.getD q .reset) h

/-- A node with the same fixed parts, alarm channels and calls differs in slots, layers and bindings, players and the lane alone. -/
theorem Node.eq_of_fixed {m n : Node} (hfixed : m.fixed = n.fixed) (halarm : m.alarm = n.alarm) (hcalls : m.calls = n.calls) :
    m = { n with slots := m.slots, mixer := m.mixer, players := m.players, lane := m.lane } := by
  obtain ⟨⟩ := m
  simp only [Node.fixed, Fixed.mk.injEq] at hfixed halarm hcalls
  obtain ⟨rfl, -, -, -, rfl, -, -, -, -, rfl, rfl, rfl, rfl⟩ := hfixed
  rw [halarm, hcalls]

@[simp] theorem Node.playerDone_calls (n : Node) (p : Nat) (why : JobEnd) : (n.playerDone p why).calls = n.calls := by
  rw [Node.playerDone, Node.notice_lane]

@[simp] theorem Node.jobFinish_calls (n : Node) (p : Nat) : (n.jobFinish p).calls = n.calls := by
  simp [Node.jobFinish, Node.modJob]

@[simp] theorem Node.jobEnd_calls (n : Node) (p : Nat) (why : JobEnd) : (n.jobEnd p why).calls = n.calls := by
  have release (m : Node) (u : User) : (m.releaseClaim u).calls = m.calls := rfl
  unfold Node.jobEnd
  dsimp only
  repeat' split
  all_goals simp [Node.modJob, release]

/-- The end of a job writes slots, layers and bindings, players and the lane alone. -/
theorem Node.jobEnd_eq (n : Node) (p : Nat) (why : JobEnd) : n.jobEnd p why = { n with
    slots := (n.jobEnd p why).slots, mixer := (n.jobEnd p why).mixer
    players := (n.jobEnd p why).players, lane := (n.jobEnd p why).lane } :=
  Node.eq_of_fixed (n.jobEnd_fixed p why) (n.jobEnd_alarm p why) (n.jobEnd_calls p why)

/-- With the response of the command that ends it, no other part is written either. -/
theorem Node.jobEnd_respond_eq (n : Node) (p : Nat) (why : JobEnd) (who : Req) (kind : Nat) (status : Status)
    (results : List Byte) : let m := (n.jobEnd p why).respond who kind status results
    m = { n with slots := m.slots, mixer := m.mixer, players := m.players, lane := m.lane } :=
  congrArg (fun m : Node => { m with lane := ((n.jobEnd p why).respond who kind status results).lane }) (n.jobEnd_eq p why)

theorem Node.modJob_player_other (n : Node) {p q : Nat} (h : p ≠ q) (f : Job → Job) : (n.modJob p f).player q = n.player q :=
  n.player_modPlayer_other p q _ h

/-- The finish of a job leaves the other player alone. -/
theorem Node.jobFinish_player_other (n : Node) {p q : Nat} (h : p ≠ q) : (n.jobFinish p).player q = n.player q := by
  rw [Node.jobFinish, Node.modJob_player_other _ h, Node.player_of_players (Node.playerDone_players _ _ _),
    Node.player_modPlayer_other _ _ _ _ h]

/-- The end of a job leaves the other player alone. -/
theorem Node.jobEnd_player_other (n : Node) {p q : Nat} (h : p ≠ q) (why : JobEnd) : (n.jobEnd p why).player q = n.player q := by
  have release (m : Node) (u : User) : (m.releaseClaim u).player q = m.player q := rfl
  have pop (m : Node) (id : Option Nat) (o : Owner) : (m.popLayers id o).player q = m.player q :=
    Node.player_of_players (m.popLayers_players id o) q
  unfold Node.jobEnd
  dsimp only
  repeat' split
  all_goals simp only [Node.jobFinish_player_other _ h, Node.modJob_player_other _ h, Node.player_modPlayer_other _ _ _ _ h,
    release, pop]

/-! ## STOP (R161, R163) -/

/-- A pass has no samples left (R158, log 22) when its last frame has been given, or is the next one and due in this frame time. -/
theorem Node.passOver_iff (n : Node) (p : Nat) : n.passOver p = true ↔ (n.player p).passDone = true ∨
    (((n.player p).job.half = .second ∧ (n.player p).underrunPair = false ∧
      (n.player p).job.position + 1 = (n.player p).job.length) ∧ Share.player p ∉ n.early) := by
  simp [Node.passOver, Player.lastPair, Node.took, and_assoc]

theorem Job.running_iff (j : Job) : j.running = true ↔ j.state ≠ .idle ∧ j.state ≠ .stopping := by simp [Job.running]

/-- STOP of a running job ends it, and then answers with the state in which that leaves it. -/
theorem Node.takeStop_running {n : Node} {p : Nat} (hp : p ≤ 1) (hwaits : n.players.waits = [])
    (hrun : (n.player p).job.running = true) (who : Req) : n.takeStop who p =
      (n.jobEnd p .stopped).respond who 0x2D .ok [byte p, byte ((n.jobEnd p .stopped).player p).job.state.code] := by
  rw [Node.takeStop, hwaits, if_pos List.isEmpty_nil, Node.stopNow, if_neg (by omega), if_neg ((Job.running_iff _).1 hrun).1]

/-- Settles O27: the job ends before the response goes out; its stream stays open for samples of the pass that are left. -/
theorem stopEndsTheJob : Obligations.StopEndsTheJob := by
  intro who p s hinv hready hp hwaits hrun n q lastPair
  have hlen : p < n.reserve.players.players.length := by
    rw [show n.reserve.players.players.length = 2 from Node.players_len hinv]
    omega
  have run := onNode_taken hready fun m => m.takeStop who p
  rw [Node.takeStop_running (n := s.node.reserve) hp hwaits hrun] at run
  have ends := Node.jobEnd_ends (n := n.reserve) hlen hrun .stopped
  have others (k : Nat) (hk : k ≠ p) := n.reserve.jobEnd_player_other hk.symm .stopped
  obtain ⟨closes, stays⟩ := Node.jobEnd_stream (n := n.reserve) (why := .stopped) hlen hrun
  have past : n.reserve.passOver p = true ↔ q.passDone = true ∨ (lastPair ∧ Share.player p ∉ n.early) := n.passOver_iff p
  refine ⟨_, run, ?_, ends, others, fun _ hpast => closes ?_, fun hplaying hdone hleft hbound => stays ?_ ?_, ?_⟩
  · exact n.reserve.jobEnd_respond_eq p .stopped who 0x2D .ok _
  · rintro ⟨-, -, hsamples⟩
    exact ne_true_of_eq_false hsamples (past.2 hpast)
  · refine ⟨rfl, hplaying, Bool.eq_false_iff.2 fun hpast => ?_⟩
    rcases past.1 hpast with hd | ⟨hpair, hfree⟩
    · exact ne_true_of_eq_false hdone hd
    · exact hleft.elim (· hpair) hfree
  · exact Option.isSome_iff_ne_none.2 hbound
  · exact Node.respond_last (congrArg Fixed.mgmt (n.reserve.jobEnd_fixed p .stopped)) who 0x2D .ok _

end Sys2Proof.Machine
end

section
/-! PROOF. A job that waits (O51), and the passes and gaps of a job (O52). -/

namespace Sys2Proof.Machine

/-! ## The job of a player, after an update -/

theorem Node.modJob_eq_set (n : Node) (p : Nat) (f : Job → Job) : n.modJob p f = { n with players := { n.players with
    players := n.players.players.set p { n.player p with job := f (n.player p).job } } } := by
  rw [Node.modJob, Node.modPlayer, modify_eq_set_getD _ _ .reset]
  rfl

theorem Node.job_modJob_self {n : Node} {p : Nat} (hp : p < n.players.players.length) (f : Job → Job) :
    ((n.modJob p f).player p).job = f (n.player p).job := congrArg Player.job (n.player_modPlayer_self p _ hp)

/-! ## A PENDING job (R152) -/

theorem Job.running_of_state {j : Job} {st : JobState} (h : j.state = st) (hst : st ≠ .idle ∧ st ≠ .stopping) :
    j.running = true := by
  rw [Job.running_iff, h]
  exact hst

/-- The WAIT gate is open when WAIT is clear or no layer of the job's binding is HELD. -/
theorem Node.gateOpen_of {n : Node} {p : Nat} (h : (n.player p).job.wait = true → ∀ z, z ≤ 15 → ∀ l ∈ n.stack z,
    (n.player p).job.binding = some l.binding → l.state ≠ .held) : n.gateOpen p = true := by
  cases hwait : (n.player p).job.wait with
  | false => simp [Node.gateOpen, hwait]
  | true =>
    cases hb : (n.player p).job.binding with
    | none => simp [Node.gateOpen, hb]
    | some id =>
      have clear : ∀ z < 16, ∀ l ∈ n.stack z, l.binding = id → l.state ≠ .held := fun z hz l hl hid =>
        h hwait z (by omega) l hl (by rw [hb, hid])
      simpa [Node.gateOpen, hwait, hb, zoneIndices, ← imp_iff_not_or] using clear

/-- A PENDING job whose WAIT gate is open goes on to its claim gate. -/
theorem Node.testGate_open {n : Node} {p : Nat} (hstate : (n.player p).job.state = .waiting) (hopen : n.gateOpen p = true) :
    n.testGate p = n.modJob p Job.passClaimGate := if_pos ⟨hstate, hopen⟩

/-- JOB_TIMEOUT, when the next count brings the timer of a PENDING job to its limit. -/
theorem exec_jobTimeout {s : State} {p : Nat} (hstate : (s.node.player p).job.state = .waiting)
    (htimer : 1439999 ≤ (s.node.player p).job.timer) :
    exec (.jobTimeout p) s = .next { s with node := s.node.jobEnd p .timeout } := by
  have due : (s.node.player p).job.state = .waiting ∧ 1440000 ≤ (s.node.player p).job.timer + 1 := ⟨hstate, by omega⟩
  exact congrArg (fun m => Host.Outcome.next { s with node := m }) (if_pos due)

/-- Settles O51: the open gate leaves the claim gate alone to decide, and the limit ends the job. -/
theorem waitingJobsGoOn : Obligations.WaitingJobsGoOn := by
  intro p s hinv hp hstate n q j
  refine ⟨fun hgate => ?_, fun htimer => ?_⟩
  · have gate := Node.testGate_open (n := n) hstate (Node.gateOpen_of hgate)
    rw [Node.modJob_eq_set] at gate
    exact congrArg (fun m => Host.Outcome.next { s with node := m }) gate
  · have hlen : p < n.players.players.length := by
      rw [show n.players.players.length = 2 from Node.players_len hinv]
      omega
    have hrun : (n.player p).job.running = true := Job.running_of_state hstate (by decide)
    exact ⟨_, exec_jobTimeout hstate htimer, Node.jobEnd_ends hlen hrun .timeout,
      fun k hk => n.jobEnd_player_other hk.symm .timeout⟩

/-! ## A job's frame time (R153, R154) -/

/-- A job at the FIRST frame of a pair. -/
def Job.atFirst (j : Job) : Job := { j with half := .first }

/-- The last output of a pass: the SECOND frame of its last pair, its sample in the queue. -/
theorem Player.frame_jobLast {p : Player} (hv : p.voice = none) (hplaying : p.job.state = .playing)
    (hhalf : p.job.half = .second) (hpair : p.underrunPair = false) (hq : p.queue ≠ [])
    (hlast : p.job.position + 1 = p.job.length) :
    p.frame.passDone = true ∧ p.frame.voice = none ∧ p.frame.job = p.job.atFirst := by
  cases queue : p.queue with
  | nil => exact absurd queue hq
  | cons sample rest =>
    simp [Player.frame, Player.sounds, Player.jobFrame, Pair.step, Pair.next, Job.countUnderrun, Job.atFirst, hv, hplaying,
      hhalf, hpair, queue, hlast]

/-- A job in GAP gives no output, and its record stays. -/
theorem Player.frame_gap {p : Player} (hgap : p.job.state = .gap) : p.frame.job = p.job := by
  cases hv : p.voice with
  | some v => simp [Player.frame, Player.voiceFrame, hv]
  | none => simp [Player.frame, Player.sounds, hv, hgap]

/-- The frame time of a job's last output in a pass, also with what its stream delivers. -/
theorem Node.playerTick_jobLast {n : Node} {p : Nat} (hp : p < n.players.players.length) (hv : (n.player p).voice = none)
    (hplaying : (n.player p).job.state = .playing) (hhalf : (n.player p).job.half = .second)
    (hpair : (n.player p).underrunPair = false) (hq : (n.player p).queue ≠ [])
    (hlast : (n.player p).job.position + 1 = (n.player p).job.length) :
    ((n.playerTick p).player p).passDone = true ∧ ((n.playerTick p).player p).voice = none ∧
      ((n.playerTick p).player p).job = (n.player p).job.atFirst := by
  obtain ⟨got, next, frame⟩ := Node.playerTick_player hp
  rw [frame]
  exact Player.frame_jobLast hv hplaying hhalf hpair (List.append_ne_nil_of_left_ne_nil hq got) hlast

theorem Node.playerTick_gap {n : Node} {p : Nat} (hp : p < n.players.players.length)
    (hgap : (n.player p).job.state = .gap) : ((n.playerTick p).player p).job = (n.player p).job := by
  obtain ⟨got, next, frame⟩ := Node.playerTick_player hp
  rw [frame]
  exact Player.frame_gap hgap

theorem Node.playerTick_length {n : Node} (hok : n.ok = true) (p : Nat) : (n.playerTick p).players.players.length = 2 :=
  Node.players_len ((Node.ok_of_kept (n.playerTick_kept p)).trans hok)

/-! ## The end of a pass and of a gap (R157) -/

/-- The part once the end of the pass of player `p` is taken. -/
def Node.passTaken (n : Node) (p : Nat) : Node := n.modPlayer p fun q => { q with passDone := false }

theorem Node.passTaken_length (n : Node) (p : Nat) :
    (n.passTaken p).players.players.length = n.players.players.length := List.length_modify _ _ _

theorem Node.job_passTaken {n : Node} {p : Nat} (hp : p < n.players.players.length) :
    ((n.passTaken p).player p).job = (n.player p).job :=
  (congrArg Player.job (n.player_modPlayer_self p (fun q => { q with passDone := false }) hp)).trans rfl

/-- The gap after a pass begins. -/
def Job.beginGap (j : Job) : Job := { j with state := .gap, timer := 0 }

/-- The last pass of a PLAYING job ends it; another is followed by a gap where the job has one, and else by the next pass. -/
theorem Node.passEnd_playing {n : Node} {p : Nat} {j : Job} (hjob : (n.player p).job = j) (h : j.state = .playing) :
    n.passEnd p =
      if j.passes ≠ 0 ∧ j.passes ≤ j.passCount then (n.passTaken p).jobEnd p .complete
      else if 0 < j.gap then (n.passTaken p).modJob p Job.beginGap
      else (n.passTaken p).modJob p Job.nextPass := by
  rw [Node.passEnd, hjob, if_neg (by simp [h]), if_pos h]
  rfl

/-- A player's own end of a pass, while it serves no voice. -/
theorem Node.playerEnd_job {n : Node} {p : Nat} (hdone : (n.player p).passDone = true) (hv : (n.player p).voice = none) :
    n.playerEnd p = n.passEnd p := by
  rw [Node.playerEnd, if_pos hdone, hv]
  rfl

theorem exec_passEnd {s : State} {p : Nat} (hstarted : s.node.mgmt.node ≠ .starting) (htaken : Share.player p ∉ s.node.early)
    (hv : (s.node.player p).voice = none) (hdone : ((s.node.playerTick p).player p).passDone = true) : exec (.passEnd p) s =
      .next { s with node := ((s.node.playerTick p).playerEnd p).mark (.player p) } :=
  onNode_due (due := fun n => n.passEndDue p) (work := fun n => ((n.playerTick p).playerEnd p).mark (.player p))
    (by simp [Node.passEndDue, Node.started, Node.took, hstarted, htaken, hv, hdone])

theorem exec_gapEnd {s : State} {p : Nat} (hstarted : s.node.mgmt.node ≠ .starting) (htaken : Share.player p ∉ s.node.early)
    (hgap : (s.node.player p).job.state = .gap) (htimer : (s.node.player p).job.gap ≤ (s.node.player p).job.timer + 1) :
    exec (.gapEnd p) s = .next { s with node := ((s.node.playerTick p).modJob p Job.nextPass).mark (.player p) } :=
  onNode_due (due := fun n => n.gapDue p) (work := fun n => ((n.playerTick p).modJob p Job.nextPass).mark (.player p))
    (by simp [Node.gapDue, Node.started, Node.took, hstarted, htaken, hgap, htimer])

/-- Whether a job has ended is read from the binding that it had. -/
theorem Node.jobEnded_of_binding {m old old' : Node} {p : Nat} {why : JobEnd}
    (h : (old.player p).job.binding = (old'.player p).job.binding) (hend : m.jobEnded old p why = true) :
    m.jobEnded old' p why = true := by
  rwa [Node.jobEnded, ← h]

/-- Settles O52: the player's frame ends the pass, and the counts of the job choose what follows; the end of a gap begins the next
pass of the same record. -/
theorem passesFollowEachOther : Obligations.PassesFollowEachOther := by
  intro p s hinv hp hstarted htaken n q j lastPass playsNext
  have hlen : p < n.players.players.length := by
    rw [show n.players.players.length = 2 from Node.players_len hinv]
    omega
  have ticked : p < (n.playerTick p).players.players.length := by
    rw [Node.playerTick_length hinv]
    omega
  refine ⟨fun hv hplaying hhalf hpair hqueue hlast => ?_, fun hgap htimer => ?_⟩
  · obtain ⟨done, voice, job⟩ := Node.playerTick_jobLast hlen hv hplaying hhalf hpair hqueue hlast
    have taken : p < ((n.playerTick p).passTaken p).players.players.length := by rwa [Node.passTaken_length]
    have kept : (((n.playerTick p).passTaken p).player p).job = j.atFirst := (Node.job_passTaken ticked).trans job
    have ends : (n.playerTick p).passEnd p = if lastPass then _ else if 0 < j.gap then _ else _ :=
      Node.passEnd_playing (j := j.atFirst) job hplaying
    have row := exec_passEnd hstarted htaken hv done
    rw [Node.playerEnd_job done voice] at row
    refine ⟨_, row, fun hl => ?_, fun hl hg => ?_, fun hl hg => ?_⟩
    · have hrun : j.atFirst.running = true := Job.running_of_state hplaying (by decide)
      rw [ends, if_pos hl]
      exact Node.jobEnded_of_binding ((congrArg Job.binding kept).trans rfl) (Node.jobEnd_ends taken (kept ▸ hrun) .complete)
    · rw [ends, if_neg hl, if_pos hg]
      have after := Node.job_modJob_self taken Job.beginGap
      exact ⟨congrArg Job.state after, congrArg Job.timer after⟩
    · rw [ends, if_neg hl, if_neg (Nat.not_lt.2 hg.le)]
      have after := Node.job_modJob_self taken Job.nextPass
      rw [kept] at after
      exact ⟨congrArg Job.state after, congrArg Job.position after, congrArg Job.half after, congrArg Job.timer after,
        congrArg Job.passCount after⟩
  · have after := Node.job_modJob_self ticked Job.nextPass
    rw [Node.playerTick_gap hlen hgap] at after
    exact ⟨_, exec_gapEnd hstarted htaken hgap htimer, congrArg Job.state after, congrArg Job.position after,
      congrArg Job.half after, congrArg Job.timer after, congrArg Job.passCount after⟩

end Sys2Proof.Machine
end

section
/-! PROOF. PLAY: one that a check refuses (O26), and one that starts a job on the ring alone (O25). -/

namespace Sys2Proof.Machine

/-! ## PLAY taken (R148, R150) -/

/-- PLAY is carried out at once while bank 0 is free and no PLAY waits. -/
theorem Node.takePlay_now {n : Node} (hbank : n.bankBusy 0 = false) (hwaits : n.players.waits = []) (who : Req) (a : PlayArgs) :
    n.takePlay who a = n.playNow who a := by
  rw [Node.takePlay, hbank, hwaits]
  rfl

theorem Node.playNow_refused {n : Node} {a : PlayArgs} {st : Status} (h : n.checkPlay a = .error st) (who : Req) :
    n.playNow who a = n.respond who 0x2C st [] := by rw [Node.playNow, h]

/-- Settles O26: the response goes into the reservation that the command made, and is all that is left of it. -/
theorem playRefusedAnswersTheCheck : Obligations.PlayRefusedAnswersTheCheck := by
  intro who a st s hready hbank hwaits hcheck
  exact onNode_responds hready ((Node.takePlay_now (n := s.node.reserve) hbank hwaits who a).trans
    (Node.playNow_refused (n := s.node.reserve) hcheck who))

/-- A PLAY goes to one of the two players (R150, check 8). -/
theorem Node.choosePlayer_le {n : Node} {named p : Nat} (hnamed : named ≤ 2) (h : n.choosePlayer named = some p) : p ≤ 1 := by
  unfold Node.choosePlayer at h
  split at h
  · have mem := List.mem_of_find?_eq_some h
    simp only [List.mem_cons, List.not_mem_nil, or_false] at mem
    omega
  · split at h
    · obtain rfl := Option.some.inj h
      omega
    · cases h

theorem Node.checkPlay_player {n : Node} {a : PlayArgs} {p : Nat} {e : Entry} (h : n.checkPlay a = .ok (p, e)) : p ≤ 1 := by
  unfold Node.checkPlay at h
  repeat' split at h
  all_goals cases h
  exact Node.choosePlayer_le (Nat.not_lt.1 ‹¬2 < a.player›) ‹n.choosePlayer a.player = some p›

/-! ## The job opened (R151, steps 1 and 2; R155) -/

/-- A batch adds at most 64 samples to its player's queue. -/
theorem Node.deliverBatch_queue {n : Node} {p : Nat} (hp : p < n.players.players.length) (stalled : Nat → Bool) :
    ((n.deliverBatch p stalled).player p).queue.length ≤ (n.player p).queue.length + 64 := by
  unfold Node.deliverBatch
  dsimp only
  split
  · rw [n.player_modPlayer_self p _ hp, List.length_append]
    have allowed := (Stream.allowance_le (n.player p).stream (n.player p).queue.length).1
    have delivered := n.streamBatch_length (n.player p).stream stalled
      ((n.player p).stream.allowance (n.player p).queue.length) (n.player p).streamNext []
    rw [List.length_nil] at delivered
    omega
  · omega

theorem Node.deliverBatch_player_other (n : Node) {p q : Nat} (h : p ≠ q) (stalled : Nat → Bool) :
    (n.deliverBatch p stalled).player q = n.player q := by
  unfold Node.deliverBatch
  dsimp only
  split
  · exact n.player_modPlayer_other p q _ h
  · rfl

/-- A part with its Player Unit replaced. -/
def Node.withPlayers (n : Node) (l : Players) : Node := { n with players := l }

/-- Opening a job writes the players alone. -/
theorem Node.openJob_eq (n : Node) (who : Req) (a : PlayArgs) (p : Nat) (e : Entry) :
    n.openJob who a p e = n.withPlayers (n.openJob who a p e).players := by
  rw [Node.openJob, Node.deliverFirst, Node.deliverBatch_eq]
  rfl

/-- The player of an opened job: its record filled, its stream open with the first batch delivered. -/
theorem Node.openJob_player {n : Node} {p : Nat} (hp : p < n.players.players.length) (who : Req) (a : PlayArgs) (e : Entry) :
    ((n.openJob who a p e).player p).job = jobOf a who e (n.player p).job.lastEnd ∧
      ((n.openJob who a p e).player p).streamOpen = true ∧ ((n.openJob who a p e).player p).queue.length ≤ 64 := by
  obtain ⟨filled, hfilled⟩ : ∃ m : Node, m = n.modPlayer p fun q => { q with
    job := jobOf a who e q.job.lastEnd, queue := [], streamOpen := true, streamNext := 0, passDone := false } := ⟨_, rfl⟩
  have player := hfilled ▸ n.player_modPlayer_self p _ hp
  have hlen : p < filled.players.players.length := by simpa [hfilled] using hp
  obtain ⟨got, next, delivered⟩ := Node.deliverBatch_player hlen filled.bankBusy
  have queue := Node.deliverBatch_queue hlen filled.bankBusy
  rw [player] at delivered queue
  rw [Node.openJob, ← hfilled]
  exact ⟨congrArg Player.job delivered, congrArg Player.streamOpen delivered, by rwa [List.length_nil, Nat.zero_add] at queue⟩

theorem Node.openJob_player_other (n : Node) {p q : Nat} (h : p ≠ q) (who : Req) (a : PlayArgs) (e : Entry) :
    (n.openJob who a p e).player q = n.player q :=
  (Node.deliverBatch_player_other _ h _).trans (n.player_modPlayer_other p q _ h)

/-! ## The claim and the gates of a job (R151, steps 5 and 6; R152) -/

theorem Node.modJob_modJob (n : Node) (p : Nat) (f g : Job → Job) :
    (n.modJob p f).modJob p g = n.modJob p fun j => g (f j) := by
  simp only [Node.modJob, Node.modPlayer, List.modify_modify_eq]
  rfl

theorem Node.modJob_congr {n : Node} {p : Nat} {f g : Job → Job} (h : f (n.player p).job = g (n.player p).job) :
    n.modJob p f = n.modJob p g := by rw [Node.modJob_eq_set, Node.modJob_eq_set, h]

/-- A job whose claim is asked for and not yet decided. -/
def Job.askClaim (j : Job) : Job := { j with state := .claiming, claim := .requested, timer := 0 }

/-- The part once a job of class `cls` on player `p` has asked for its claim and waits for it. -/
def Node.jobClaiming (n : Node) (p cls : Nat) : Node := { n.modJob p Job.askClaim with slots := { n.slots with
  waiting := n.slots.waiting ++ [n.newClaim (.player p) cls], nextOrder := n.slots.nextOrder + 1 } }

theorem Node.jobClaiming_player {n : Node} {p : Nat} (hp : p < n.players.players.length) (cls : Nat) :
    (n.jobClaiming p cls).player p = { n.player p with job := (n.player p).job.askClaim } := n.player_modPlayer_self p _ hp

/-- At a slave a job on the ring without a binding asks for its claim, which waits, and is CLAIMING. -/
theorem Node.gateJob_slave {n : Node} {p : Nat} {a : PlayArgs} (hp : p < n.players.players.length)
    (hnode : n.mgmt.node = .running) (hclaim : n.hasClaim (.player p) = false) (hrole : n.ring.role = false)
    (hring : a.ringOut = true) (hstate : (n.player p).job.state = .waiting) (hbinding : (n.player p).job.binding = none)
    (hout : (n.player p).job.ringOut = true) : n.gateJob p a = n.jobClaiming p a.cls := by
  obtain ⟨asks, hasks⟩ : ∃ f : Job → Job, f = fun j => { j with claim := .requested } := ⟨_, rfl⟩
  obtain ⟨asked, hasked⟩ : ∃ m : Node, m =
    ((n.modJob p asks).setWaiting (n.slots.waiting ++ [n.newClaim (.player p) a.cls])).bumpOrder := ⟨_, rfl⟩
  have claimed : (n.modJob p asks).claimFor (.player p) a.cls = asked :=
    (Node.claimFor_slave (n := n.modJob p asks) hnode hclaim hrole a.cls).trans hasked.symm
  have job : (asked.player p).job = asks (n.player p).job := hasked ▸ Node.job_modJob_self hp asks
  have opens : asked.gateOpen p = true := Node.gateOpen_of fun _ _ _ l _ hl => by simp [job, hasks, hbinding] at hl
  have gates : (asks (n.player p).job).passClaimGate = (n.player p).job.askClaim := by
    rw [Job.passClaimGate, if_pos (by simp [hasks, hout]), hasks]
    rfl
  have both : (n.modJob p asks).modJob p Job.passClaimGate = n.modJob p Job.askClaim :=
    (n.modJob_modJob p asks _).trans (Node.modJob_congr gates)
  rw [Node.gateJob, if_pos hring, ← hasks, claimed, Node.testGate_open (by rw [job, hasks]; exact hstate) opens, hasked,
    Node.jobClaiming, ← both]
  rfl

/-! ## PLAY on the ring alone (R151) -/

/-- The push of a job without a target. -/
def Pushed.unbound (n : Node) : Pushed := { node := n, id := none, active := 0, held := 0, kind := 0, full := 0 }

/-- PLAY on the ring alone that passes its checks opens its job, answers, and asks for its claim. -/
theorem Node.playNow_ring {n : Node} {a : PlayArgs} {p : Nat} {e : Entry} (hcheck : n.checkPlay a = .ok (p, e))
    (htarget : a.target = none) (hring : a.ringOut = true) (who : Req) {opened : Node} (hopened : n.openJob who a p e = opened) :
    n.playNow who a =
      (opened.respond who 0x2C .ok ((opened.gateJob p a).playResults p (.unbound opened))).gateJob p a := by
  have push : opened.pushJob p a = .unbound opened := by
    rw [Node.pushJob, htarget]
    rfl
  rw [Node.playNow, hcheck]
  dsimp only
  rw [hopened, push, if_neg (by simp [hring])]
  rfl

/-- The results of a PLAY whose job is CLAIMING, with no binding and no slot (R151, log 62). -/
theorem Node.playResults_claiming {n m : Node} {p : Nat} (hstate : (n.player p).job.state = .claiming)
    (hbinding : (n.player p).job.binding = none) (htalk : (n.player p).job.talk = none) :
    n.playResults p (.unbound m) = [byte p, 2, 0xFF, 0xFF, 0, 0, 0, 0] := by
  rw [Node.playResults, hstate, hbinding, htalk]
  rfl

/-- At a slave that PLAY leaves its job CLAIMING, and the response says so. -/
theorem Node.playNow_slave {n : Node} {a : PlayArgs} {p : Nat} {e : Entry} {who : Req} {l : Players}
    (hopened : n.openJob who a p e = n.withPlayers l) (hp : p < l.players.length)
    (hjob : ((n.withPlayers l).player p).job = jobOf a who e (n.player p).job.lastEnd)
    (hnode : n.mgmt.node = .running) (hclaim : n.hasClaim (.player p) = false) (hrole : n.ring.role = false)
    (hcheck : n.checkPlay a = .ok (p, e)) (htarget : a.target = none) (hring : a.ringOut = true) : n.playNow who a =
      ((n.withPlayers l).respond who 0x2C .ok [byte p, 2, 0xFF, 0xFF, 0, 0, 0, 0]).jobClaiming p a.cls := by
  have hstate : ((n.withPlayers l).player p).job.state = .waiting := by rw [hjob]; rfl
  have hbinding : ((n.withPlayers l).player p).job.binding = none := by rw [hjob]; rfl
  have htalk : ((n.withPlayers l).player p).job.talk = none := by rw [hjob]; rfl
  have hout : ((n.withPlayers l).player p).job.ringOut = true := by rw [hjob]; exact hring
  have gate : (n.withPlayers l).gateJob p a = (n.withPlayers l).jobClaiming p a.cls :=
    Node.gateJob_slave hp hnode hclaim hrole hring hstate hbinding hout
  have player := Node.jobClaiming_player (n := n.withPlayers l) hp a.cls
  rw [Node.playNow_ring hcheck htarget hring who hopened, gate,
    Node.playResults_claiming (by rw [player]; rfl) (by rw [player]; exact hbinding) (by rw [player]; exact htalk)]
  exact Node.gateJob_slave (n := (n.withPlayers l).respond who _ _ _) hp hnode hclaim hrole hring hstate hbinding hout

/-- The job that a PLAY on the ring starts, its gain and gap clamped (R151). -/
theorem jobOf_askClaim {a : PlayArgs} (hring : a.ringOut = true) (who : Req) (e : Entry) (last : Option JobEnd) :
    (jobOf a who e last).askClaim = { Job.reset with
      state := .claiming, message := a.message, start := e.start, length := e.length, cls := a.cls
      gain := max (-384) (min 32 (max (-384) (min 32 a.gain) + e.trim)), trim := e.trim, ringOut := true
      passes := a.passes, gap := min 10000 a.gapMs * 48, wait := a.wait, requester := who.src, cookie := a.cookie
      claim := .requested, lastEnd := last } := by
  simp [jobOf, Job.askClaim, Job.reset, clampInt, clampNat, hring]

/-- Settles O25: the job is opened, and its claim waits; the response reads the job as its claim and gates leave it. -/
theorem playStartsAJob : Obligations.PlayStartsAJob := by
  intro who a p e s hinv hready hbank hwaits hcheck htarget hring hrole hclaim n claim j
  have hp : p < n.reserve.players.players.length := by
    rw [show n.reserve.players.players.length = 2 from Node.players_len hinv]
    exact Nat.lt_succ_of_le (Node.checkPlay_player hcheck)
  have hlen : p < (n.reserve.openJob who a p e).players.players.length := by
    rw [Node.players_len ((Node.ok_of_kept (n.reserve.openJob_kept who a p e)).trans hinv)]
    exact Nat.lt_succ_of_le (Node.checkPlay_player hcheck)
  obtain ⟨job, stream, queue⟩ := Node.openJob_player hp who a e
  have others (q : Nat) (hq : q ≠ p) := n.reserve.openJob_player_other hq.symm who a e
  obtain ⟨l, opened⟩ : ∃ l, n.reserve.openJob who a p e = n.reserve.withPlayers l := ⟨_, n.reserve.openJob_eq who a p e⟩
  rw [opened] at job stream queue others hlen
  have hnode : n.mgmt.node = .running := Node.ready_running hready
  have run := onNode_taken hready fun m => m.takePlay who a
  rw [Node.takePlay_now (n := s.node.reserve) hbank hwaits,
    Node.playNow_slave (n := s.node.reserve) opened hlen job hnode hclaim hrole hcheck htarget hring] at run
  have player := Node.jobClaiming_player (n := (n.reserve.withPlayers l).respond who 0x2C .ok [byte p, 2, 0xFF, 0xFF, 0, 0, 0, 0])
    hlen a.cls
  refine ⟨_, run, rfl, ?_, ?_, ?_, fun q hq => ?_, rfl, rfl⟩
  · exact (congrArg Player.job player).trans ((congrArg Job.askClaim job).trans (jobOf_askClaim hring who e _))
  · exact (congrArg Player.streamOpen player).trans stream
  · exact (congrArg (fun q => q.queue.length) player).trans_le queue
  · exact (Node.modJob_player_other _ hq.symm _).trans (others q hq)

end Sys2Proof.Machine
end

section
/-! PROOF. What leaves the flash store alone (O7): every command, the packets taken, the receivers' frame times, the start-up
steps and the change to mastering. An operation of Kept.lean leaves it alone by `Node.flash_of_kept`. -/

namespace Sys2Proof.Machine

/-! ## Named operations -/

/-- An operation that leaves the kept fields alone leaves the flash store alone. -/
theorem Node.flash_of_kept {m n : Node} (h : m.kept = n.kept) : m.library.flash = n.library.flash := congrArg Kept.flash h

/-- A command leaves the flash store alone when its work does. -/
theorem Node.taken_flash (n : Node) (who : Req) {work : Node → Node}
    (hwork : ∀ m, (work m).library.flash = m.library.flash) : (n.taken who work).library.flash = n.library.flash := by
  unfold Node.taken
  split
  · split
    · exact hwork n.reserve
    · rfl
  · rfl

theorem Node.alarmEvent_flash (n : Node) : n.alarmEvent.library.flash = n.library.flash :=
  Node.flash_of_kept n.alarmEvent_kept

/-! ## Commands that write settings (R22, R23, R45, R46, R124, R189-R195) -/

@[simp] theorem Node.readPorts_flash (n : Node) (who : Req) : (n.readPorts who).library.flash = n.library.flash := rfl

@[simp] theorem Node.setRingParameters_flash (n : Node) (who : Req) (threshold hold orphan : Nat) :
    (n.setRingParameters who threshold hold orphan).library.flash = n.library.flash := rfl

/-- A change of fire zone is one alarm event (R104). -/
@[simp] theorem Node.writeZone_flash (n : Node) (who : Req) (z logical fire kind : Nat) (floor : Int) :
    (n.writeZone who z logical fire kind floor).library.flash = n.library.flash := by
  have written (f : FireZone) (k : ZoneKind) :
      (n.zoneWritten z logical f k floor).library.flash = n.library.flash := by
    unfold Node.zoneWritten
    dsimp only
    split
    · rfl
    · exact Node.alarmEvent_flash _
  unfold Node.writeZone
  dsimp only
  repeat' split
  all_goals first | rfl | exact written _ _

@[simp] theorem Node.setVolume_flash (n : Node) (who : Req) (logical : Nat) (level : Int) :
    (n.setVolume who logical level).library.flash = n.library.flash := by
  unfold Node.setVolume
  dsimp only
  repeat' split
  all_goals rfl

@[simp] theorem Node.writeStation_flash (n : Node) (who : Req) (i number mic speaker : Nat) (auto : Bool) :
    (n.writeStation who i number mic speaker auto).library.flash = n.library.flash := by
  unfold Node.writeStation
  dsimp only
  repeat' split
  all_goals rfl

@[simp] theorem Node.setNoticeDestination_flash (n : Node) (who : Req) (address : Nat) :
    (n.setNoticeDestination who address).library.flash = n.library.flash := by
  unfold Node.setNoticeDestination
  split <;> rfl

@[simp] theorem Node.setGroups_flash (n : Node) (who : Req) (mask : Mask16) :
    (n.setGroups who mask).library.flash = n.library.flash := by
  unfold Node.setGroups
  split <;> rfl

@[simp] theorem Node.setOutput_flash (n : Node) (who : Req) (output source : Nat) (invert : Bool) (zones : Mask16)
    (kinds : Byte) (param : Nat) : (n.setOutput who output source invert zones kinds param).library.flash = n.library.flash := by
  unfold Node.setOutput
  dsimp only
  repeat' split
  all_goals rfl

/-- The notices of a RESTART leave the flash store alone, and the rest of it writes the lane and the wait for the reset. -/
@[simp] theorem Node.takeRestart_flash (n : Node) (who : Req) : (n.takeRestart who).library.flash = n.library.flash := by
  have noticed := (foldl_kept _ Node.restartJob_kept [0, 1] ((List.range 64).foldl Node.restartBinding n)).trans
    (foldl_kept _ Node.restartBinding_kept _ _)
  unfold Node.takeRestart
  dsimp only
  generalize [0, 1].foldl Node.restartJob ((List.range 64).foldl Node.restartBinding n) = m at noticed
  exact Node.flash_of_kept (m := m) noticed

/-! ## Packets taken from the inbound queue (R126, R187) -/

/-- The work of a command, whichever it is: it writes settings, or leaves the kept fields alone. -/
theorem Node.manage_flash (n : Node) (i : Instr) : (n.manage i).library.flash = n.library.flash := by
  cases i
  case readPorts | setRingParameters | writeZone | setVolume | writeStation | setNoticeDestination | setGroups | setOutput |
      restart => simp [Node.manage]
  all_goals exact Node.flash_of_kept (by simp [Node.manage])

theorem Node.dispatch_flash (n : Node) (p : Packet) (who : Req) : (n.dispatch p who).library.flash = n.library.flash := by
  unfold Node.dispatch
  split
  · exact n.manage_flash _
  · rfl
  · rfl

theorem Node.takeHead_flash (n : Node) : n.takeHead.library.flash = n.library.flash := by
  unfold Node.takeHead
  dsimp only
  repeat' split
  case h_2.isFalse.isTrue.isTrue => exact n.popInbound.taken_flash _ fun m => m.dispatch_flash _ _
  all_goals rfl

/-- A signalling packet is work of the Call Controller. -/
theorem Node.takeSignalling_flash (n : Node) (kind : Nat) {work : Node → Packet → Node}
    (hwork : ∀ m p, (work m p).kept = m.kept) : (n.takeSignalling kind work).library.flash = n.library.flash := by
  unfold Node.takeSignalling
  repeat' split
  · rfl
  · exact Node.flash_of_kept (m := work n.popInbound _) (n := n.popInbound) (hwork _ _)
  · rfl

/-! ## Receivers and the master role (R5-R8, R12, R13, R20) -/

theorem Node.changeWrap_flash (n : Node) (w : WrapState) : (n.changeWrap w).library.flash = n.library.flash := by
  unfold Node.changeWrap
  dsimp only
  split
  · rfl
  · refine (Node.flash_of_kept ((Node.generalNotice_kept _ _ _).trans (Node.failAllClaims_kept _))).trans ?_
    split <;> rfl

theorem Node.portTick_flash (n : Node) (p : Port) (rx : Rx) : (n.portTick p rx).library.flash = n.library.flash := by
  unfold Node.portTick Node.turnMode
  dsimp only
  repeat' split
  all_goals rfl

theorem Node.portFrame_flash (n : Node) (west east : Option Rx) : (n.portFrame west east).library.flash = n.library.flash := by
  have ticked (m : Node) (p : Port) (rx : Option Rx) : (m.portTickIf p rx).library.flash = m.library.flash := by
    cases rx with
    | none => rfl
    | some rx => exact m.portTick_flash p rx
  unfold Node.portFrame Node.applyPorts
  dsimp only
  rw [Node.changeWrap_flash]
  exact (ticked _ _ _).trans (ticked _ _ _)

theorem Node.onePort_flash (n : Node) (p : Port) (rx : Rx) : (n.onePort p rx).library.flash = n.library.flash := by
  cases p <;> exact n.portFrame_flash _ _

/-- After its own fields of the ring, a resumption writes slots, talk records, calls and jobs (R38). -/
theorem Node.resume_flash (n : Node) : n.resume.library.flash = n.library.flash := by
  unfold Node.resume
  dsimp only
  rw [Node.flash_of_kept (foldl_kept _ Node.decidePending_kept _ _),
    Node.flash_of_kept (foldl_kept _ (fun n (c : Claim) => Node.tell_kept n c.user .noSlot) _ _),
    Node.flash_of_kept (Node.resumeTable_kept _), Node.flash_of_kept (Node.loseAllHeld_kept _),
    Node.flash_of_kept (Node.relayEmpty_kept _), Node.flash_of_kept (Node.emptyRegister_kept _)]

/-! ## Start-up (R174, R196) -/

theorem Node.loadConfig_flash (n : Node) : n.loadConfig.library.flash = n.library.flash := by
  unfold Node.loadConfig
  dsimp only
  split <;> rfl

theorem Node.configNow_flash (n : Node) : n.configNow.library.flash = n.library.flash := by
  unfold Node.configNow
  split
  · exact n.loadConfig_flash
  · rfl

/-- The end of STARTING is one alarm event (R122). -/
theorem Node.leaveNow_flash (n : Node) : n.leaveNow.library.flash = n.library.flash := by
  unfold Node.leaveNow
  split
  · unfold Node.leave
    rw [Node.alarmEvent_flash]
  · rfl

/-! ## The rows -/

/-- A row leaves the flash store alone when its work on the part does. -/
theorem flash_of_row {work : Node → Node} {s t : State} (h : onNode work s = .next t)
    (hwork : ∀ n, (work n).library.flash = n.library.flash) : t.node.library.flash = s.node.library.flash := by
  cases h
  exact hwork s.node

/-- The row of a command, by its work once taken. -/
theorem flash_of_command {who : Req} {work : Node → Node} {s t : State}
    (h : onNode (fun n => n.taken who work) s = .next t) (hwork : ∀ m, (work m).library.flash = m.library.flash) :
    t.node.library.flash = s.node.library.flash := flash_of_row h fun n => n.taken_flash who hwork

/-- The row of an event that changes nothing while it is not due (log 2). -/
theorem flash_of_due {due : Node → Prop} [∀ n, Decidable (due n)] {work : Node → Node} {s t : State}
    (h : onNode (fun n => if due n then work n else n) s = .next t) (hwork : ∀ m, (work m).library.flash = m.library.flash) :
    t.node.library.flash = s.node.library.flash := by
  refine flash_of_row h fun n => ?_
  split
  · exact hwork n
  · rfl

/-- A row outside `writesFlash` leaves the flash store alone: by O6 where it writes no kept field, and else by its own work. -/
theorem exec_flash {c : Instr} {s t : State} (hc : writesFlash c = false) (h : exec c s = .next t) :
    t.node.library.flash = s.node.library.flash := by
  by_cases hkept : writesKept c = false
  · exact Node.flash_of_kept (otherCommandsLeaveSettings c s t hkept h)
  have hset : (writesKept c && !writesFlash c) = true := by
    rw [hc, Bool.eq_true_of_not_eq_false hkept]
    rfl
  cases c <;> dsimp only [exec] at h
  case readPorts | setRingParameters | writeZone | setVolume | writeStation | setNoticeDestination | setGroups | setOutput |
      restart => exact flash_of_command h fun m => by simp
  case portFrameTime => exact flash_of_row h fun n => n.portFrame_flash _ _
  case portSilentTimeout | portLock | portDegrade | errorWindowEnd | portQualified =>
    exact flash_of_due h fun m => m.onePort_flash _ _
  case masterResume => exact flash_of_due h Node.resume_flash
  case configImageLoad => exact flash_of_row h Node.configNow_flash
  case leaveStarting => exact flash_of_row h Node.leaveNow_flash
  case offer | ringing | answered | reject | clear =>
    exact flash_of_row h fun n => n.takeSignalling_flash _ fun m p => by simp
  case takeCommand => exact flash_of_row h Node.takeHead_flash
  all_goals cases hset

/-- Settles O7: such a row leaves the flash store as it was, so every address reads the same. -/
theorem onlyFlashEventsWriteFlash : Obligations.OnlyFlashEventsWriteFlash := by
  intro c s t hc h a
  rw [exec_flash hc h]

end Sys2Proof.Machine
end

section
/-! PROOF. The commands on flash: READ DATA (O11), and the start of ERASE, WRITE DATA and SAVE CONFIG (O28). -/

namespace Sys2Proof.Machine

/-! ## READ DATA (R171) -/

/-- READ DATA of an extent inside its sector passes every check: by its bank it joins the wait list, or is answered at once. -/
theorem Node.takeRead_inside {n : Node} {sector offset count : Nat} (hsector : sector ≤ 2047) (hpos : 1 ≤ count)
    (hcount : count ≤ 48) (hoffset : offset ≤ 4095) (hend : offset + count ≤ 4096) (who : Req) :
    let w : ReadWait := { who := who, sector := sector, offset := offset, count := count }
    (n.bankBusy (bankOf sector) = false → n.takeRead who sector offset count = n.answerRead w) ∧
    (n.bankBusy (bankOf sector) = true → n.library.readWaits.length < 4 →
      n.takeRead who sector offset count = n.setReadWaits (n.library.readWaits ++ [w])) := by
  intro w
  unfold Node.takeRead
  rw [if_neg (by omega), if_neg (by omega)]
  refine ⟨fun hfree => ?_, fun hbusy hroom => ?_⟩
  · rw [hfree]
    rfl
  · rw [hbusy, if_pos rfl, if_neg (by omega)]

/-- Settles O11: the reservation of the command takes the answer, or stays with the wait. -/
theorem readDataReadsFlash : Obligations.ReadDataReadsFlash := by
  intro who sector offset count s hready hsector hpos hcount hoffset hend n data wait
  obtain ⟨answered, waiting⟩ := Node.takeRead_inside (n := n.reserve) hsector hpos hcount hoffset hend who
  refine ⟨fun hfree => (onNode_taken hready _).trans ?_, fun hbusy hroom => (onNode_taken hready _).trans ?_⟩
  · rw [answered hfree, Node.answerRead, Node.reserve_respond]
    rfl
  · rw [waiting hbusy hroom]
    rfl

/-! ## Starts on an empty queue (R168, R170, R176) -/

/-- An operation that passes the checks of R170 on an empty queue joins it. -/
theorem Node.admitOp_empty {n : Node} {op : FlashOp} (hlock : op.sector < 256 → n.pins.siglock = false)
    (hplayed : n.sectorPlayed op.sector = false) (hops : n.library.ops = []) : n.admitOp op = n.enqueueOp op := by
  have unlocked : ¬(op.sector < 256 ∧ n.pins.siglock = true) := fun h => by simp [hlock h.1] at h
  have room : n.opsFull = false := by simp [Node.opsFull, hops]
  rw [Node.admitOp, if_neg unlocked, hplayed, room]
  rfl

/-- On an empty queue an operation is the head, and is considered alone. -/
theorem Node.enqueueOp_empty {n : Node} (hops : n.library.ops = []) (op : FlashOp) :
    n.enqueueOp op = Node.considerHeads 2 (n.setOps [op]) := by
  rw [Node.enqueueOp, hops]
  rfl

section Head

variable {n : Node} {op : FlashOp} {rest : List FlashOp} (hops : n.library.ops = op :: rest) (hphase : op.phase = .waiting)
  (hbank : n.deferred (bankOf op.sector) = false)
include hops hphase hbank

/-- An ERASE at the head starts where neither an alarm nor SIGLOCK keeps it (R168, R169, R172). -/
theorem Node.considerHeads_erase (fuel : Nat) (hkind : op.kind = .erase) (hlock : op.sector < 256 → n.pins.siglock = false) :
    Node.considerHeads (fuel + 1) n = n.startHead op .erasing op.data := by
  have unlocked : ¬(op.sector < 256 ∧ n.pins.siglock = true) := fun h => by simp [hlock h.1] at h
  simp [Node.considerHeads, hops, hphase, hkind, hbank, unlocked]

/-- A WRITE DATA at the head starts likewise, in its write phase. -/
theorem Node.considerHeads_write (fuel : Nat) (hkind : op.kind = .write) (hlock : op.sector < 256 → n.pins.siglock = false) :
    Node.considerHeads (fuel + 1) n = n.startHead op .writing op.data := by
  have unlocked : ¬(op.sector < 256 ∧ n.pins.siglock = true) := fun h => by simp [hlock h.1] at h
  simp [Node.considerHeads, hops, hphase, hkind, hbank, unlocked]

/-- A SAVE CONFIG at the head starts with the working image as it stands (R176). -/
theorem Node.considerHeads_save (fuel : Nat) (hkind : op.kind = .save) :
    Node.considerHeads (fuel + 1) n = n.startHead op .erasing n.workingImage := by
  simp [Node.considerHeads, hops, hphase, hkind, hbank]

end Head

section Taken

variable {n : Node} (hops : n.library.ops = [])
include hops

section Sector

variable {sector : Nat} (hsector : sector ≤ 2047) (hlock : sector < 256 → n.pins.siglock = false)
  (hplayed : n.sectorPlayed sector = false) (hbank : n.deferred (bankOf sector) = false)
include hsector hlock hplayed hbank

/-- ERASE of a sector that nothing keeps it from starts its erase phase. -/
theorem Node.takeErase_starts (who : Req) : n.takeErase who sector =
    n.setOps [{ newOp .erase sector 0 [] who with phase := .erasing }] := by
  rw [Node.takeErase, if_neg (by omega), Node.admitOp_empty hlock hplayed hops, Node.enqueueOp_empty hops]
  exact Node.considerHeads_erase rfl rfl hbank 1 rfl hlock

/-- WRITE DATA inside such a sector starts its write phase. -/
theorem Node.takeWrite_starts (who : Req) {offset : Nat} {data : List Byte} (hpos : 1 ≤ data.length)
    (hlen : data.length ≤ 48) (hend : offset + data.length ≤ 4096) : n.takeWrite who sector offset data =
    n.setOps [{ newOp .write sector offset data who with phase := .writing }] := by
  rw [Node.takeWrite, if_neg (by omega), if_neg (by omega), if_neg (by omega), Node.admitOp_empty hlock hplayed hops,
    Node.enqueueOp_empty hops]
  exact Node.considerHeads_write rfl rfl hbank 1 rfl hlock

end Sector

/-- SAVE CONFIG starts with an erase of the config image's sector, which bank 0 holds. -/
theorem Node.takeSave_starts (who : Req) (hbank : n.deferred 0 = false) : n.takeSave who =
    n.setOps [{ newOp .save 257 0 n.workingImage who with phase := .erasing }] := by
  have room : n.opsFull = false := by simp [Node.opsFull, hops]
  rw [Node.takeSave, room, if_neg Bool.false_ne_true, Node.enqueueOp_empty hops]
  exact Node.considerHeads_save (n := n.setOps [newOp .save 257 0 [] who]) rfl rfl hbank 1 rfl

end Taken

/-- Settles O28: each command passes its checks, and its operation is the head of the queue and starts. -/
theorem flashCommandsStart : Obligations.FlashCommandsStart := by
  intro who s hready hops n started
  refine ⟨fun sector hsector hlock hplayed hbank => ⟨(onNode_taken hready _).trans ?_,
    fun offset data hpos hlen hend => (onNode_taken hready _).trans ?_⟩, fun hbank => (onNode_taken hready _).trans ?_⟩
  · rw [Node.takeErase_starts (n := s.node.reserve) hops hsector hlock hplayed hbank]
    rfl
  · rw [Node.takeWrite_starts (n := s.node.reserve) hops hsector hlock hplayed hbank who hpos hlen hend]
    rfl
  · rw [Node.takeSave_starts (n := s.node.reserve) hops who hbank]
    rfl

end Sys2Proof.Machine
end

section
/-! PROOF. What a flash phase leaves in flash, completed (O53) or abandoned by SIGLOCK (O54). -/

namespace Sys2Proof.Machine

/-! ## Reads after a write and after an abandoned phase (R166) -/

/-- After a write each byte in its range reads as the AND of its old value and the data's, and every other byte as before. There
is no byte past the end of the store (R165), so a range that runs over it is cut there. -/
theorem Memory.read_programAll {m : List Host.Cell} (h : Memory.wf m = true) {x : Nat} (hx : x < Config.flashBytes) (a : Nat)
    (vs : List Byte) : Memory.read (Memory.programAll m a vs) x =
      if a ≤ x ∧ x < a + vs.length then Memory.read m x &&& vs.getD (x - a) 0 else Memory.read m x := by
  induction vs generalizing m a with
  | nil =>
    rw [if_neg (by simp)]
    rfl
  | cons v vs ih =>
    rw [Memory.programAll, ih (Memory.program_wf a v h), List.length_cons]
    by_cases here : x = a
    · subst here
      rw [if_neg (by omega), if_pos (by omega), Nat.sub_self, List.getD_cons_zero]
      exact Memory.read_store_self _ h hx
    · have other : Memory.read (Memory.program m a v) x = Memory.read m x := Memory.read_store_other m _ here
      rw [other]
      by_cases inside : a + 1 ≤ x ∧ x < a + 1 + vs.length
      · have place : x - a = x - (a + 1) + 1 := by omega
        rw [if_pos inside, if_pos (by omega), place, List.getD_cons_succ]
      · rw [if_neg inside, if_neg (by omega)]

/-- An abandoned erase leaves every byte outside its sector, whatever its free bits. -/
theorem Memory.read_abandonErase_other (m : List Host.Cell) {sector x : Nat} (use : Nat) (hx : x / 4096 ≠ sector) :
    Memory.read (Memory.abandonErase m sector use) x = Memory.read m x := by
  have fold (l : List Nat) (hl : ∀ i ∈ l, i < 4096) (m : List Host.Cell) : Memory.read (l.foldl (fun m i =>
      Memory.store m (sector * 4096 + i) (Memory.read m (sector * 4096 + i) ||| Config.abandonedBits use i)) m) x =
        Memory.read m x := by
    induction l generalizing m with
    | nil => rfl
    | cons i l ih =>
      have inside : i < 4096 := hl i (List.mem_cons_self ..)
      rw [List.foldl_cons, ih fun j hj => hl j (List.mem_cons_of_mem _ hj)]
      exact Memory.read_store_other m _ (by omega)
  exact fold _ (fun i hi => List.mem_range.1 hi) m

/-- An abandoned write leaves every byte outside its range, whatever its free bits. -/
theorem Memory.read_abandonWrite_other (m : List Host.Cell) (use i : Nat) {a x : Nat} {vs : List Byte}
    (hx : x < a ∨ a + vs.length ≤ x) : Memory.read (Memory.abandonWrite m use i a vs) x = Memory.read m x := by
  induction vs generalizing m i a with
  | nil => rfl
  | cons v vs ih =>
    rw [List.length_cons] at hx
    rw [Memory.abandonWrite, ih _ _ (by omega)]
    split
    · exact Memory.read_store_other m _ (by omega)
    · rfl

/-! ## Completed phases (R168) -/

/-- A completed erase phase erases its sector; the response, the readers of the bank and the next head leave the flash store
alone. -/
theorem Node.completePhase_erased (n : Node) {op : FlashOp} (hphase : op.phase = .erasing) :
    (n.completePhase op).library.flash = Memory.eraseSector n.library.flash op.sector := by
  have saved (freed : Node) : (freed.serveBank (bankOf op.sector)).library.flash = freed.library.flash :=
    Node.flash_of_kept (Node.serveBank_kept _ _)
  have answered (erased : Node) : (((erased.finishOp op .ok (bytesOf 2 op.sector)).serveBank
      (bankOf op.sector)).considerHead).library.flash = erased.library.flash :=
    Node.flash_of_kept ((Node.considerHead_kept _).trans ((Node.serveBank_kept _ _).trans (Node.finishOp_kept _ _ _ _)))
  unfold Node.completePhase
  rw [hphase]
  cases op.kind with
  | save => exact saved _
  | erase => exact answered _
  | write => exact answered _
  | reload => exact answered _

/-- A completed write phase programs its data. -/
theorem Node.completePhase_written (n : Node) {op : FlashOp} (hphase : op.phase = .writing) :
    (n.completePhase op).library.flash =
      Memory.programAll n.library.flash (flashAddress op.sector op.offset) op.data := by
  have written : n.completePhase op = (((n.programOp op).finishWrite op).serveBank (bankOf op.sector)).considerHead := by
    simp [Node.completePhase, hphase]
  rw [written,
    Node.flash_of_kept ((Node.considerHead_kept _).trans ((Node.serveBank_kept _ _).trans (Node.finishWrite_kept _ _)))]
  rfl

/-- The row of the end of a phase that is due leaves flash as its completion does. -/
theorem Node.phaseRow_flash {n : Node} {op : FlashOp} {rest : List FlashOp} (hops : n.library.ops = op :: rest)
    (htook : n.tookFlash = false) (hphase : op.phase ≠ .waiting) (hdue : op.duration ≤ op.timer + 1) :
    n.phaseRow.library.flash = (n.completePhase op).library.flash := by
  have due : n.phaseDue = some op := by simp [Node.phaseDue, hops, hphase, hdue, htook]
  rw [Node.phaseRow, due]
  exact Node.flash_of_kept ((Node.mark_kept _ _).trans (Node.startedSince_kept _ _))

/-- Settles O53: the row of a due phase completes it, and the store reads back what the phase wrote. -/
theorem flashPhasesChangeTheirSector : Obligations.FlashPhasesChangeTheirSector := by
  intro op rest s hinv hops htook n base
  refine ⟨fun hphase hdue => ⟨_, rfl, fun a => ?_⟩, fun hphase hdue => ⟨_, rfl, fun a ha => ?_⟩⟩
  · have due : op.duration ≤ op.timer + 1 := by
      rw [FlashOp.duration, hphase]
      exact Nat.succ_le_succ hdue
    rw [Node.phaseRow_flash hops htook (by simp [hphase]) due, Node.completePhase_erased _ hphase, Memory.read_eraseSector]
  · have due : op.duration ≤ op.timer + 1 := by
      rw [FlashOp.duration, hphase]
      exact hdue
    rw [Node.phaseRow_flash hops htook (by simp [hphase]) due, Node.completePhase_written _ hphase]
    exact Memory.read_programAll ((Node.ok_iff _).1 hinv).1 ha _ _

/-! ## Abandoned phases (R172) -/

/-- An abandoned phase writes flash and the count of free values. -/
theorem Node.abandonPhase_eq (n : Node) (op : FlashOp) : n.abandonPhase op =
    { n.setFlash (n.abandonPhase op).library.flash with freeCount := (n.abandonPhase op).freeCount } := by
  unfold Node.abandonPhase
  generalize Memory.abandonErase n.library.flash op.sector n.freeCount = erased
  generalize Memory.abandonWrite n.library.flash n.freeCount 0 (flashAddress op.sector op.offset) op.data = written
  split <;> rfl

/-- An abandoned phase of an operation inside its sector leaves every byte outside that sector. -/
theorem Node.abandonPhase_other (n : Node) {op : FlashOp} (hend : op.offset + op.data.length ≤ 4096) {a : Nat}
    (ha : a / 4096 ≠ op.sector) :
    Memory.read (n.abandonPhase op).library.flash a = Memory.read n.library.flash a := by
  have outside : a < flashAddress op.sector op.offset ∨ flashAddress op.sector op.offset + op.data.length ≤ a := by
    unfold flashAddress
    omega
  have erased := Memory.read_abandonErase_other n.library.flash n.freeCount ha
  have written := Memory.read_abandonWrite_other n.library.flash n.freeCount 0 outside
  unfold Node.abandonPhase
  generalize Memory.abandonErase n.library.flash op.sector n.freeCount = me at erased
  generalize Memory.abandonWrite n.library.flash n.freeCount 0 (flashAddress op.sector op.offset) op.data = mw at written
  split
  · rfl
  · exact erased
  · exact written

/-- A bank with no reader that waits, and no PLAY or STOP that waits on the catalog, frees nothing. -/
theorem Node.serveBank_idle {n : Node} (hreads : n.library.readWaits = []) (hwaits : n.players.waits = []) (bank : Nat) :
    n.serveBank bank = n := by
  have reads : n.setReadWaits [] = n := by rw [← hreads]; rfl
  have waits : n.setWaits [] = n := by rw [← hwaits]; rfl
  simp [Node.serveBank, Node.resumeWaits, hreads, hwaits, reads, waits]

/-- An operation is shielded in its running phase, as an ERASE or WRITE DATA of a protected sector. -/
theorem FlashOp.shielded_iff (op : FlashOp) :
    op.shielded = true ↔ op.phase ≠ .waiting ∧ (op.kind = .erase ∨ op.kind = .write) ∧ op.sector < 256 := by
  simp [FlashOp.shielded, and_assoc]

/-- A node whose SIGLOCK pin reads asserted. -/
def Node.locked (n : Node) : Node := { n with pins := { n.pins with siglock := true } }

/-- SIGLOCK only shows on the pin where the head, if any, is not shielded. -/
theorem Node.siglockRow_unshielded {n : Node} (h : ∀ op ∈ n.library.ops.head?, op.shielded = false) :
    n.siglockRow = n.locked := by
  unfold Node.siglockRow
  dsimp only
  split
  · rfl
  next op rest hops =>
    rw [h op (by simp [hops]), if_neg Bool.false_ne_true]
    rfl

/-- SIGLOCK with a shielded operation alone in the queue and nothing that waits: its phase is abandoned and it is answered
PROTECTED; the shares of the coming frame time are noted. -/
theorem Node.siglockRow_shielded {n : Node} {op : FlashOp} (hops : n.library.ops = [op]) (hshielded : op.shielded = true)
    (hreads : n.library.readWaits = []) (hwaits : n.players.waits = []) : ∃ early, n.siglockRow =
      { (n.locked.abandonPhase op).finishOp op .isProtected [] with early := early } := by
  have lone : (n.locked.abandonPhase op).library.ops = [op] := (Node.abandonPhase_ops _ _).trans hops
  have empty : ((n.locked.abandonPhase op).finishOp op .isProtected []).library.ops = [] := congrArg List.tail lone
  have idle : ((n.locked.abandonPhase op).finishOp op .isProtected []).serveBank (bankOf op.sector) =
      (n.locked.abandonPhase op).finishOp op .isProtected [] := by
    refine Node.serveBank_idle ?_ ?_ _
    · rw [Node.abandonPhase_eq]
      exact hreads
    · rw [Node.abandonPhase_eq]
      exact hwaits
  have read : n.locked.siglockRead = (n.locked.abandonPhase op).finishOp op .isProtected [] := by
    have head : n.locked.library.ops = [op] := hops
    simp only [Node.siglockRead, head, hshielded, if_true]
    rw [idle, Node.considerHead_empty empty]
  have row : n.siglockRow = (n.locked.siglockRead.startedSince n.locked).mark (.flash (bankOf op.sector)) := by
    simp only [Node.siglockRow, hops, hshielded, if_true]
    rfl
  rw [row, read, Node.startedSince_eq]
  exact ⟨_, rfl⟩

/-- Settles O54: by the head of the queue, SIGLOCK only shows on the pin, or abandons the head's phase and answers it. -/
theorem siglockAbandonsProtectedWork : Obligations.SiglockAbandonsProtectedWork := by
  intro s n
  refine ⟨fun hfree => ?_, fun op hops hphase hsector hkind hend hreads hwaits => ?_⟩
  · have unshielded : ∀ op ∈ n.library.ops.head?, op.shielded = false := fun op hop => by
      rw [← Bool.not_eq_true, FlashOp.shielded_iff]
      rintro ⟨hphase, hkind, hsector⟩
      obtain h | h | h | h := hfree op hop
      · exact hphase h
      · omega
      · simp [h] at hkind
      · simp [h] at hkind
    exact congrArg (fun m => Host.Outcome.next { s with node := m }) (Node.siglockRow_unshielded unshielded)
  · obtain ⟨early, row⟩ := Node.siglockRow_shielded hops (op.shielded_iff.2 ⟨hphase, hkind, hsector⟩) hreads hwaits
    have abandoned := n.locked.abandonPhase_eq op
    refine ⟨n.siglockRow, rfl, ?_⟩
    rw [row]
    refine ⟨?_, ?_, ?_, fun a ha => ?_⟩
    · rw [abandoned]
      rfl
    · exact congrArg List.tail ((n.locked.abandonPhase_ops op).trans hops)
    · rw [abandoned]
      rfl
    · exact Node.abandonPhase_other n.locked hend ha

end Sys2Proof.Machine
end

section
/-! PROOF. Start-up: the load of the config image or of its defaults, and the end of STARTING (O33). -/

namespace Sys2Proof.Machine

/-! ## Records of a table replaced by their place -/

/-- A record of a table that a load has replaced. -/
theorem getD_mapIdx_of_lt {α : Type} {l : List α} (f : Nat → α → α) {k : Nat} (hk : k < l.length) (d : α) :
    (l.mapIdx f).getD k d = f k (l.getD k d) := by
  simp [List.getD_eq_getElem?_getD, hk]

/-- A record past the last one that a load replaces. -/
theorem getD_mapIdx_of_le {α : Type} {l : List α} {bound k : Nat} (hk : bound ≤ k) (f : Nat → α → α) (d : α) :
    (l.mapIdx fun i r => if i < bound then f i r else r).getD k d = l.getD k d := by
  simp [List.getD_eq_getElem?_getD, List.getElem?_mapIdx, Nat.not_lt.2 hk]

/-! ## Directory numbers of loaded stations (R123) -/

/-- A station as it is loaded where the numbers in `held` are held already. -/
def Station.unless (held : List Nat) (st : Station) : Station := if st.number ∈ held then { st with number := 0 } else st

theorem Station.unless_congr {held held' : List Nat} (h : ∀ k, k ∈ held ↔ k ∈ held') :
    Station.unless held = Station.unless held' := by
  funext st
  simp only [Station.unless, h]

/-- A station of number 0 is loaded as it is, whatever is held. -/
theorem Station.unless_eq (held : List Nat) (st : Station) :
    (if st.number ≠ 0 ∧ held.contains st.number = true then { st with number := 0 } else st) = st.unless held := by
  by_cases hzero : st.number = 0
  · rw [if_neg (by simp [hzero]), Station.unless, ← hzero, ite_self]
  · simp [Station.unless, hzero]

/-- Each station loses its number to a lower-numbered one that has it. -/
theorem dropDuplicates_getElem? (seen : List Nat) (l : List Station) (i : Nat) :
    (dropDuplicates seen l)[i]? = l[i]?.map (Station.unless (seen ++ (l.take i).map Station.number)) := by
  induction l generalizing seen i with
  | nil => rfl
  | cons st rest ih =>
    have shape : ∃ seen', dropDuplicates seen (st :: rest) = st.unless seen :: dropDuplicates seen' rest ∧
        ∀ k, k ∈ seen' ↔ k = st.number ∨ k ∈ seen := by
      rw [← Station.unless_eq]
      rw [dropDuplicates]
      split
      next dup =>
        refine ⟨seen, rfl, fun k => ⟨.inr, ?_⟩⟩
        rintro (rfl | h)
        · simpa using dup.2
        · exact h
      next => exact ⟨st.number :: seen, rfl, fun k => List.mem_cons⟩
    obtain ⟨seen', shape, held⟩ := shape
    rw [shape]
    cases i with
    | zero => simp
    | succ i =>
      rw [List.getElem?_cons_succ, List.getElem?_cons_succ, ih]
      refine congrArg (Option.map · _) (Station.unless_congr fun k => ?_)
      simp only [List.take_succ_cons, List.map_cons, List.mem_append, List.mem_cons, held]
      tauto

/-! ## The config image (R44, R62, R123, R191) -/

section Applied

variable {n : Node} (hok : n.ok = true) (bs : List Byte)
include hok

theorem Node.applyConfig_zone {z : Nat} (hz : z ≤ 15) :
    (n.applyConfig bs).zone z = (n.zone z).load (slice bs (2 + 8 * z) 8) :=
  getD_mapIdx_of_lt _ (by rw [Node.zones_len hok]; omega) _

/-- Classes 0-4 are the image's, corrected. -/
theorem Node.applyConfig_class {c : Nat} (hc : c ≤ 4) :
    (n.applyConfig bs).classRecord c = ClassRecord.ofBytes c (slice bs (130 + 6 * c) 6) :=
  (getD_mapIdx_of_lt _ (by rw [Node.classes_len hok]; omega) _).trans (if_pos (by omega))

theorem Node.applyDefaults_zone {z : Nat} (hz : z ≤ 15) : n.applyDefaults.zone z = (n.zone z).loadDefaults := by
  have inside : z < n.mixer.zones.length := by
    rw [Node.zones_len hok]
    omega
  simp [Node.zone, Node.applyDefaults, List.getD_eq_getElem?_getD, inside]

theorem Node.applyDefaults_class {c : Nat} (hc : c ≤ 4) :
    n.applyDefaults.classRecord c = defaultClasses.getD c (n.classRecord c) :=
  (getD_mapIdx_of_lt _ (by rw [Node.classes_len hok]; omega) _).trans (if_pos (by omega))

end Applied

/-- A station of a taken config image: as its bytes give it, its number 0 where a lower-numbered station's bytes give that. -/
theorem Node.applyConfig_station (n : Node) (bs : List Byte) {i : Nat} (hi : i ≤ 7) : (n.applyConfig bs).station i =
    (Station.ofBytes i (slice bs (160 + 5 * i) 5)).unless
      ((List.range i).map fun k => (Station.ofBytes k (slice bs (160 + 5 * k) 5)).number) := by
  have low : min i 8 = i := by omega
  rw [Node.station, List.getD_eq_getElem?_getD]
  simp only [Node.applyConfig]
  rw [dropDuplicates_getElem?]
  simp [low, show i < 8 by omega, Function.comp_def, ← List.map_take, List.take_range]

theorem Node.applyDefaults_station (n : Node) {i : Nat} (hi : i ≤ 7) : n.applyDefaults.station i = .default i := by
  simp [Node.station, Node.applyDefaults, Calls.reset, List.getD_eq_getElem?_getD, show i < 8 by omega]

/-! ## The load (R174) -/

theorem Node.loadConfig_taken {n : Node} (h : imageTaken n.configInFlash 0x57 = true) : n.loadConfig =
    { n.applyConfig n.configInFlash with
      library := { n.library with configTaken := true }
      mgmt := { (n.applyConfig n.configInFlash).mgmt with configRead := true } } := by
  simp only [Node.loadConfig, h, if_true]
  rfl

theorem Node.loadConfig_notTaken {n : Node} (h : imageTaken n.configInFlash 0x57 = false) : n.loadConfig =
    { n.applyDefaults with
      library := { n.library with configTaken := false }
      mgmt := { n.applyDefaults.mgmt with configRead := true } } := by
  simp only [Node.loadConfig, h, Bool.false_eq_true, if_false]
  rfl

/-- Classes 5-7 are the signal sector's: a load of the config image leaves them. -/
theorem Node.loadConfig_highClass (n : Node) {c : Nat} (hc : 5 ≤ c) : n.loadConfig.classRecord c = n.classRecord c := by
  cases h : imageTaken n.configInFlash 0x57 with
  | true =>
    rw [Node.loadConfig_taken h]
    exact getD_mapIdx_of_le hc _ _
  | false =>
    rw [Node.loadConfig_notTaken h]
    exact getD_mapIdx_of_le hc _ _

/-! ## The rows (R196) -/

theorem exec_configImageLoad {s : State} (hstarting : s.node.mgmt.node = .starting) (hheld : s.node.mgmt.held = false)
    (hread : s.node.mgmt.configRead = false) : exec .configImageLoad s = .next { s with node := s.node.loadConfig } := by
  have due : s.node.configNow = s.node.loadConfig := by simp [Node.configNow, Node.startingUp, hstarting, hheld, hread]
  exact congrArg (fun m => Host.Outcome.next { s with node := m }) due

theorem exec_leaveStarting {s : State} (hstarting : s.node.mgmt.node = .starting) (hheld : s.node.mgmt.held = false)
    (hread : s.node.mgmt.configRead = true) (hcounter : 1 ≤ s.node.ring.counter) :
    exec .leaveStarting s = .next { s with node := s.node.leave } := by
  have due : s.node.leaveNow = s.node.leave := by simp [Node.leaveNow, Node.startingUp, hstarting, hheld, hread, hcounter]
  exact congrArg (fun m => Host.Outcome.next { s with node := m }) due

/-- The alarm recomputation of the end of STARTING leaves the node state alone. -/
theorem Node.leave_node (n : Node) :
    n.leave.mgmt.node = if 1 ≤ n.mgmt.address ∧ n.mgmt.address ≤ 239 then .running else .noAddress := by
  have state {m m' : Node} (h : m.kept = m'.kept) : m.mgmt.node = m'.mgmt.node := congrArg Kept.node h
  rw [Node.leave, state (Node.alarmEvent_kept _)]
  simp [isAddress]

/-- Settles O33: by the taking of the image the load applies it or the defaults; the end of STARTING reads the strap. -/
theorem startUpLoadsAndLeaves : Obligations.StartUpLoadsAndLeaves := by
  intro s hinv hstarting hheld n image
  have flashed : image = n.configInFlash := rfl
  clear_value image
  intro zone logical target station number
  refine ⟨fun hread => ⟨n.loadConfig, exec_configImageLoad hstarting hheld hread, ?frame,
      fun c hc => n.loadConfig_highClass hc, fun htaken => ?taken, fun htaken => ?defaults⟩,
    fun hread hcounter => ⟨n.leave, exec_leaveStarting hstarting hheld hread hcounter, n.leave_node⟩⟩
  case frame =>
    cases h : imageTaken image 0x57 with
    | true => rw [Node.loadConfig_taken (flashed ▸ h), ← flashed, Node.applyConfig]
    | false => rw [Node.loadConfig_notTaken (flashed ▸ h), Node.applyDefaults]
  case taken =>
    rw [Node.loadConfig_taken (flashed ▸ htaken), ← flashed]
    refine ⟨fun z hz => Node.applyConfig_zone hinv image hz, fun c hc => Node.applyConfig_class hinv image hc, fun i hi => ?_,
      rfl, rfl, rfl, rfl, rfl, rfl⟩
    refine (n.applyConfig_station image hi).trans ?_
    have held : number i ∈ (List.range i).map number ↔ ∃ k, k < i ∧ number k = number i := by simp
    by_cases taken : ∃ k, k < i ∧ number k = number i
    · rw [if_pos taken]
      exact if_pos (held.2 taken)
    · rw [if_neg taken]
      exact if_neg fun h => taken (held.1 h)
  case defaults =>
    rw [Node.loadConfig_notTaken (flashed ▸ htaken)]
    refine ⟨fun z hz => Node.applyDefaults_zone hinv hz, fun c hc => ?_, fun i hi => n.applyDefaults_station hi,
      rfl, rfl, rfl, rfl, rfl, rfl⟩
    have known : c < defaultClasses.length := Nat.lt_of_le_of_lt hc (by decide)
    refine (Node.applyDefaults_class hinv hc).trans ?_
    rw [List.getD_eq_getElem _ _ known, List.getD_eq_getElem _ _ known]

end Sys2Proof.Machine
end

section
/-! PROOF. The rows of commands, by the sender that each names, and the invariant and the bounds of stacks and queues at reset
(O4) and through every step (O5). -/

namespace Sys2Proof.Machine

/-! ## The rows of commands (R187) -/

/-- The sender that a command names; an event names none. -/
def senderOf : Instr → Option Req
  | .readPorts who | .setRingParameters who _ _ _ | .send who _ _ | .unsend who _ | .readSlots who _ _ _
  | .writeZone who _ _ _ _ _ | .setVolume who _ _ | .readZone who _ | .bind who _ _ _ _ _ _ _ | .unbind who _
  | .readBinding who _ | .writeClass who _ _ _ _ _ _ | .readClass who _ | .readStack who _ | .setAlarm who _ _
  | .readAlarm who | .writeStation who _ _ _ _ _ | .call who _ _ _ | .answer who _ | .hangup who _ | .readCalls who _ _ _
  | .play who _ | .stop who _ | .readPlayers who | .erase who _ | .writeData who _ _ _ | .readData who _ _ _
  | .saveConfig who | .reloadSignals who | .identify who | .readStatus who | .setNoticeDestination who _
  | .setGroups who _ | .setOutput who _ _ _ _ _ _ | .restart who => some who
  | _ => none

/-- The row of a command takes it from its sender and does its block's work. -/
theorem exec_command {i : Instr} {who : Req} (h : senderOf i = some who) (s : State) :
    exec i s = onNode (fun n => n.taken who fun m => m.manage i) s := by
  cases i <;> cases h <;> rfl

/-! ## The invariant and the bounds through every row -/

section Rows

variable {s t : State} {work : Node → Node} {due : Node → Prop} [∀ n, Decidable (due n)]

/-- A row keeps the invariant when its work on the part does. -/
theorem ok_of_row (h : onNode work s = .next t) (hs : s.node.ok = true) (hwork : s.node.ok = true → (work s.node).ok = true) :
    t.node.ok = true := by
  cases h
  exact hwork hs

/-- The row of an event that changes nothing while it is not due (log 2). -/
theorem ok_of_due (h : onNode (fun n => if due n then work n else n) s = .next t) (hs : s.node.ok = true)
    (hwork : (work s.node).ok = s.node.ok) : t.node.ok = true := by
  refine ok_of_row h hs fun hs => ?_
  split
  · exact hwork.trans hs
  · exact hs

/-- A row keeps the bounds when its work on the part does. -/
theorem fits_of_row (h : onNode work s = .next t) (hs : s.node.fits six 0)
    (hwork : s.node.fits six 0 → (work s.node).fits six 0) : t.node.fits six 0 := by
  cases h
  exact hwork hs

/-- The row of an event that changes nothing while it is not due (log 2). -/
theorem fits_of_due (h : onNode (fun n => if due n then work n else n) s = .next t) (hs : s.node.fits six 0)
    (hwork : s.node.fits six 0 → (work s.node).fits six 0) : t.node.fits six 0 := by
  refine fits_of_row h hs fun hs => ?_
  split
  · exact hwork hs
  · exact hs

end Rows

/-- Every row keeps the invariant: a command by its block's work, an event that writes a kept field by its own. -/
theorem exec_ok {c : Instr} {s t : State} (h : exec c s = .next t) (hs : s.node.ok = true) : t.node.ok = true := by
  by_cases hkept : writesKept c = false
  · exact (Node.ok_of_kept (otherCommandsLeaveSettings c s t hkept h)).trans hs
  cases hsender : senderOf c with
  | some who =>
    rw [exec_command hsender] at h
    exact ok_of_row h hs (Node.taken_ok who fun m hm => Node.manage_ok c hm)
  | none =>
    have hset : (writesKept c && (senderOf c).isNone) = true := by
      rw [hsender, Bool.eq_true_of_not_eq_false hkept]
      rfl
    cases c <;> dsimp only [exec] at h
    case powerOn | resetNAssert => exact ok_of_row h hs (Node.resetWith_ok _ _ _)
    case resetNRelease => exact ok_of_row h hs Node.release_ok
    case restartTimeout => exact ok_of_row h hs Node.restartNow_ok
    case configImageLoad => exact ok_of_row h hs Node.configNow_ok
    case leaveStarting => exact ok_of_row h hs Node.leaveNow_ok
    case frameTime => exact ok_of_row h hs (Node.frameTick_ok _)
    case portFrameTime => exact ok_of_row h hs fun hn => (Node.portFrame_ok _ _ _).trans hn
    case portSilentTimeout | portLock | portDegrade | errorWindowEnd | portQualified =>
      exact ok_of_due h hs (Node.onePort_ok _ _ _)
    case processFrame => exact ok_of_row h hs Node.processWaiting_ok
    case returnedFrame => exact ok_of_row h hs Node.returnedWaiting_ok
    case masterResume => exact ok_of_due h hs (Node.resume_ok _)
    case offer | ringing | answered | reject | clear =>
      exact ok_of_row h hs (Node.takeSignalling_ok _ fun m p hm => (Node.ok_of_kept (by simp)).trans hm)
    case flashPhaseComplete => exact ok_of_row h hs Node.phaseRow_ok
    case siglockAssert => exact ok_of_row h hs Node.siglockRow_ok
    case takeCommand => exact ok_of_row h hs Node.takeHead_ok
    all_goals cases hset

/-- A volume ramp leaves the stack of its zone alone (R82). -/
theorem Zone.rampVolume_stack (r : Zone) : r.rampVolume.stack = r.stack := by
  unfold Zone.rampVolume
  repeat' split
  all_goals rfl

/-- Every row keeps the bounds: a command uses up the response it owes or holds it, and an event owes none. -/
theorem exec_fits {c : Instr} {s t : State} (h : exec c s = .next t) (hs : s.node.fits six 0) : t.node.fits six 0 := by
  cases hsender : senderOf c with
  | some who =>
    rw [exec_command hsender] at h
    exact fits_of_row h hs (Node.taken_fits _ who fun m hm => Node.manage_fits m c hm)
  | none =>
    cases c <;> dsimp only [exec] at h
    case powerOn | resetNAssert => exact fits_of_row h hs fun _ => Node.resetWith_fits _ _ _ _
    case resetNRelease => exact fits_of_row h hs (Node.release_fits _)
    case restartTimeout => exact fits_of_row h hs (Node.restartNow_fits _)
    case configImageLoad => exact fits_of_row h hs (Node.configNow_fits _)
    case leaveStarting => exact fits_of_row h hs (Node.leaveNow_fits _)
    case frameTime => exact fits_of_row h hs (Node.frameTick_fits _ _)
    case portFrameTime => exact fits_of_row h hs (Node.portFrame_fits _ _ _)
    case portSilentTimeout | portLock | portDegrade | errorWindowEnd | portQualified =>
      exact fits_of_due h hs (Node.onePort_fits _ _ _)
    case processFrame => exact fits_of_row h hs (Node.processWaiting_fits _)
    case returnedFrame => exact fits_of_row h hs (Node.returnedWaiting_fits _)
    case takeCommand => exact fits_of_row h hs (Node.takeHead_fits _)
    case offer | ringing | answered | reject | clear =>
      exact fits_of_row h hs (Node.takeSignalling_fits _ _ fun m p hm => by simp [hm])
    case autoEnd | voiceEnd | pathLost | sendListHandoff | waitGateOpen | flashPhaseComplete | siglockAssert =>
      exact fits_of_row h hs fun hn => by simp [hn]
    case volumeStep => exact fits_of_due h hs (Node.modZone_fits _ _ _ fun r => by rw [r.rampVolume_stack])
    case duckLiftStep =>
      refine fits_of_due h hs (Node.setStack_fits _ _ _ ?_)
      rw [List.length_map]
      exact hs.1 _
    case passEnd => exact fits_of_due h hs fun hn => Node.playerEnd_fits _ _ (Node.playerTick_fits _ _ hn)
    case gapEnd player =>
      exact fits_of_due h hs fun hn => Node.modJob_fits _ player Job.nextPass (Node.playerTick_fits _ _ hn)
    case masterResume | orphanReclaim | claimTimeout | releaseOwedExpiry | layerFadeEnd | contactDebounce |
        generatorStepEnd | alarmPeriodEnd | jobTimeout | offerTimeout | alertingTimeout | ringingTimeout =>
      exact fits_of_due h hs fun hn => by simp [hn]
    all_goals cases hsender

/-- The bounds say what each stack and queue holds at most (R67, R127, R168, R171, R186). -/
theorem State.Bounded.limits {s : State} (h : s.Bounded) :
    (∀ z, (s.node.stack z).length ≤ 6) ∧ s.node.library.ops.length ≤ 4 ∧ s.node.library.readWaits.length ≤ 4 ∧
    s.node.lane.outbound.length + s.node.lane.reservations ≤ 8 ∧ s.node.calls.sendList.length ≤ 24 := by
  obtain ⟨layers, ops, reads, -, load, sends, -⟩ := (Node.within_iff _ _).1 h
  exact ⟨layers, ops, reads, load, sendListOk_length _ sends⟩

/-- A step takes the row at the front of the queue, on the part as it is, or changes nothing. -/
theorem step_cases {s t : State} (h : step s = .next t) :
    t = s ∨ ∃ c rest, s.pending = c :: rest ∧ exec c { s with pending := rest } = .next t := by
  unfold step at h
  split at h
  case h_1 => cases h; exact .inl rfl
  case h_2 c rest hp => exact .inr ⟨c, rest, hp, h⟩

/-- Settles O5: a step is one row on the same part, and every row keeps both. -/
theorem invKeptByEveryStep : Obligations.InvKeptByEveryStep := by
  refine ⟨fun s t hinv h => ?_, fun s => State.Bounded.limits⟩
  obtain rfl | ⟨c, rest, -, hrow⟩ := step_cases h
  · exact ⟨hinv, id⟩
  · exact ⟨exec_ok hrow hinv, fun hs => (Node.within_iff _ _).2 (exec_fits hrow ((Node.within_iff _ _).1 hs))⟩

/-- Settles O4: the flash store is empty, every queue is empty and every table is as long as it is made. -/
theorem invAtReset : Obligations.InvAtReset := ⟨by decide, (Node.within_iff _ _).2 Node.reset_fits⟩

end Sys2Proof.Machine
end

section
/-! PROOF. The commands of notices, groups, outputs and RESTART (O13, O30). -/

namespace Sys2Proof.Machine

/-! ## Notices, groups, outputs (R189, R190, R192) -/

/-- An address that fits its byte becomes the notice destination. -/
theorem Node.setNoticeDestination_byte (n : Node) (who : Req) {a : Nat} (h : a ≤ 255) : n.setNoticeDestination who a =
    { n with lane := { n.lane with noticeDest := a } }.respond who 0x03 .ok [byte a] := if_neg (Nat.not_lt.2 h)

/-- A mask of the 15 groups becomes the node's membership. -/
theorem Node.setGroups_mask (n : Node) (who : Req) {m : Mask16} (h : m.getLsbD 15 = false) : n.setGroups who m =
    { n with lane := { n.lane with groups := m.setWidth 15 } }.respond who 0x04 .ok (bytesOf 2 m.toNat) :=
  if_neg (ne_true_of_eq_false h)

/-- A selection holds 0 in the parameters that its source does not use (R192). -/
theorem selectionOf_eq (o : OutSource) (invert : Bool) (zones : Mask16) (kinds : Byte) (param : Nat) :
    selectionOf o invert zones kinds param =
      { source := o, invert := invert
        zones := if o = .zoneClass then zones else 0
        kinds := if o = .zoneClass then kinds.setWidth 6 else 0
        param := if o = .zoneClass ∨ o = .contactEcho then param else 0 } := by
  cases o <;> rfl

/-- A source takes a class or a contact in its range, and any parameter that it does not use. -/
theorem OutSource.accepts_of {o : OutSource} {param : Nat} (hclass : o = .zoneClass → param ≤ 7)
    (hcontact : o = .contactEcho → param ≤ 1) : o.accepts param = true := by
  cases o
  case zoneClass => exact decide_eq_true (hclass rfl)
  case contactEcho => exact decide_eq_true (hcontact rfl)
  all_goals rfl

/-- A selection in its ranges is stored in its output. -/
theorem Node.setOutput_selection (n : Node) (who : Req) {k source param : Nat} {o : OutSource} (hk : k ≤ 3)
    (hsource : OutSource.ofCode source = some o) (haccepts : o.accepts param = true) (invert : Bool) (zones : Mask16)
    (kinds : Byte) : n.setOutput who k source invert zones kinds param =
      { n with mgmt := { n.mgmt with outputs := n.mgmt.outputs.set k (selectionOf o invert zones kinds param) } }.respond
        who 0x05 .ok ((selectionOf o invert zones kinds param).bytes ++ flagByte (n.mgmt.driven.getD k false)) := by
  rw [Node.setOutput, if_neg (Nat.not_lt.2 hk), hsource]
  exact if_neg (by simp [haccepts])

/-- Settles O13: each setting passes its checks, and the response goes into the reservation that the command made. -/
theorem noticeGroupsOutputsAreSet : Obligations.NoticeGroupsOutputsAreSet := by
  intro who s hready n
  refine ⟨fun a ha => (onNode_taken hready _).trans ?_, fun m hm => (onNode_taken hready _).trans ?_,
    fun k source invert zones kinds param o hk hsource hclass hcontact => ?_⟩
  · rw [Node.setNoticeDestination_byte _ who ha]
    rfl
  · rw [Node.setGroups_mask _ who hm]
    rfl
  · intro sel
    have stored : selectionOf o invert zones kinds param = sel := selectionOf_eq o invert zones kinds param
    refine (onNode_taken hready _).trans ?_
    rw [Node.setOutput_selection _ who hk hsource (OutSource.accepts_of hclass hcontact), stored]
    rfl

/-! ## RESTART (R195) -/

/-- The part but for its lane. -/
def Node.outsideLane (n : Node) : Node := { n with lane := .reset }

/-- A part that differs in its lane alone is the other with that lane. -/
theorem Node.eq_of_outsideLane {m n : Node} (h : m.outsideLane = n.outsideLane) : m = { n with lane := m.lane } :=
  congrArg (fun k : Node => { k with lane := m.lane }) h

theorem Node.mgmt_of_outsideLane {m n : Node} (h : m.outsideLane = n.outsideLane) : m.mgmt = n.mgmt := by
  rw [Node.eq_of_outsideLane h]

theorem Node.notice_outsideLane (n : Node) (dest kind : Nat) (payload : List Byte) :
    (n.notice dest kind payload).outsideLane = n.outsideLane := by
  rw [n.notice_lane]
  rfl

/-- The end of a binding at a RESTART is told, if its owner is remote (R52). -/
theorem Node.restartBinding_outsideLane (n : Node) (id : Nat) : (n.restartBinding id).outsideLane = n.outsideLane := by
  unfold Node.restartBinding Node.bindingEndedNotice
  repeat' split
  all_goals first | rfl | exact n.notice_outsideLane _ _ _

/-- The end of a job at a RESTART is told (R164). -/
theorem Node.restartJob_outsideLane (n : Node) (p : Nat) : (n.restartJob p).outsideLane = n.outsideLane := by
  unfold Node.restartJob
  split
  · rfl
  · exact n.notice_outsideLane _ _ _

theorem foldl_outsideLane (f : Node → Nat → Node) (h : ∀ n a, (f n a).outsideLane = n.outsideLane) (l : List Nat)
    (n : Node) : (l.foldl f n).outsideLane = n.outsideLane := by
  induction l generalizing n with
  | nil => rfl
  | cons a l ih => exact (ih (f n a)).trans (h n a)

/-- The part after the notices of a RESTART. -/
def Node.restartNotices (n : Node) : Node := [0, 1].foldl Node.restartJob ((List.range 64).foldl Node.restartBinding n)

theorem Node.restartNotices_outsideLane (n : Node) : n.restartNotices.outsideLane = n.outsideLane :=
  (foldl_outsideLane _ Node.restartJob_outsideLane _ _).trans (foldl_outsideLane _ Node.restartBinding_outsideLane _ n)

/-- A RESTART writes the lane and the wait for its reset. -/
theorem Node.takeRestart_eq (n : Node) (who : Req) :
    n.takeRestart who = { n with
      lane := (n.restartNotices.respond who 0x06 .ok []).lane, mgmt := { n.mgmt with restart := some 0 } } := by
  have noticed := Node.eq_of_outsideLane n.restartNotices_outsideLane
  rw [Node.takeRestart, ← Node.restartNotices]
  generalize n.restartNotices = m at noticed
  rw [noticed]
  rfl

/-- Settles O30: the notices and the response write the lane, and the wait that begins keeps the node from taking a command. -/
theorem restartIsAnswered : Obligations.RestartIsAnswered := by
  intro who s hready n
  have noticed := Node.mgmt_of_outsideLane n.reserve.restartNotices_outsideLane
  refine ⟨n.reserve.takeRestart who, onNode_taken hready _, ?_⟩
  rw [Node.takeRestart_eq]
  generalize n.reserve.restartNotices = m at noticed ⊢
  exact ⟨rfl, rfl, by simp [Node.takesCommands], Node.respond_last (n := n) noticed who 0x06 .ok []⟩

end Sys2Proof.Machine
end

section
/-! PROOF. The head of the inbound queue, and the windows that fill it (O31). -/

namespace Sys2Proof.Machine

/-! ## Commands as packets spell them (R187, R200) -/

theorem fixed_command {p : List Byte} {k : Nat} {i j : Instr} (h : fixed p k j = .command i) : j = i := by
  unfold fixed at h
  split at h <;> cases h
  rfl

theorem senderOf_fixed {p : List Byte} {k : Nat} {i j : Instr} {who : Req} (hj : senderOf j = some who)
    (h : fixed p k j = .command i) : senderOf i = some who := fixed_command h ▸ hj

theorem senderOf_bindOf {p : List Byte} {i : Instr} {who : Req} (h : bindOf p who = .command i) : senderOf i = some who := by
  unfold bindOf at h
  split at h <;> cases h
  rfl

theorem senderOf_playOf {p : List Byte} {i : Instr} {who : Req} (h : playOf p who = .command i) : senderOf i = some who := by
  unfold playOf at h
  split at h
  · cases h
  split at h
  · split at h <;> cases h
    rfl
  · exact senderOf_fixed rfl h

/-- A payload spells a command of the command range, in the name of its sender. -/
theorem commandOf_spells {kind : Nat} {p : List Byte} {who : Req} {i : Instr} (h : commandOf kind p who = .command i) :
    (0x01 ≤ kind ∧ kind ≤ 0x3F) ∧ senderOf i = some who := by
  unfold commandOf at h
  split at h
  case h_36 => cases h
  all_goals refine ⟨by decide, ?_⟩
  case h_15 => exact senderOf_bindOf h
  case h_28 => exact senderOf_playOf h
  case h_32 =>
    split at h <;> cases h
    rfl
  all_goals exact senderOf_fixed rfl h

/-! ## The inbound head (R185, R187) -/

section Head

variable {n : Node} {p : Packet} {rest : List Packet} (hinbound : n.lane.inbound = p :: rest) (htakes : n.takesCommands = true)
include hinbound htakes

/-- A node that takes commands runs, with RESET_N released, and so looks at the head by its kind. -/
theorem Node.takeHead_eq : n.takeHead =
    if 0x01 ≤ p.kind ∧ p.kind ≤ 0x3F then
      n.popInbound.taken { src := p.src, tag := p.tag } fun m => m.dispatch p { src := p.src, tag := p.tag }
    else if 0x90 ≤ p.kind ∧ p.kind ≤ 0x94 then n
    else n.popInbound := by
  have awake : ¬((!n.running) = true ∨ n.mgmt.held = true) := by
    simp only [Node.takesCommands, Bool.and_eq_true, Bool.not_eq_true'] at htakes
    obtain ⟨⟨⟨running, -⟩, released⟩, -⟩ := htakes
    simp [running, released]
  rw [Node.takeHead, hinbound]
  simp only [if_neg awake, if_pos htakes]

theorem Node.takeHead_command {i : Instr} (h : commandOf p.kind p.payload { src := p.src, tag := p.tag } = .command i) :
    n.takeHead = n.popInbound.taken { src := p.src, tag := p.tag } fun m => m.manage i := by
  rw [Node.takeHead_eq hinbound htakes, if_pos (commandOf_spells h).1]
  simp only [Node.dispatch, h]

theorem Node.takeHead_discards (h : 0x40 ≤ p.kind) (hkind : p.kind < 0x90 ∨ 0x94 < p.kind) : n.takeHead = n.popInbound := by
  rw [Node.takeHead_eq hinbound htakes, if_neg (by omega), if_neg (by omega)]

end Head

/-! ## The end of a received window (R181) -/

theorem Node.addressed_iff (n : Node) (dest : Nat) : n.addressed dest = true ↔ dest = n.mgmt.address ∨ dest = 255 ∨
    (240 ≤ dest ∧ dest ≤ 254 ∧ n.lane.groups.getLsbD (dest - 240) = true) := by
  show n.addressed dest = true ↔ dest = n.address ∨ _
  simp [Node.addressed, and_assoc, or_assoc]

theorem Delivery.ofByte_copied (b : Byte) : Delivery.ofByte b = .copied ↔ b = 0xC1 := by
  unfold Delivery.ofByte
  split
  · simpa
  · split <;> simpa

section Receive

variable {n : Node} {all : List Byte} (lane : List Byte)

theorem Node.receive_other (h : ¬n.addressed (byteAt all 1) = true) (whole : Bool) :
    n.receive whole all lane = laneStep n lane := by
  simp [Node.receive, h]

/-- A window without a packet is passed on, whoever it is for. -/
theorem Node.receive_unreadable (h : Packet.ofWindow all = none) : n.receive true all lane = laneStep n lane := by
  simp [Node.receive, h]

variable (haddressed : n.addressed (byteAt all 1) = true)
include haddressed

theorem Node.receive_broken : n.receive false all lane =
    if byteAt all 1 = n.mgmt.address then n.refuse lane else laneStep n lane := by
  simp only [Node.receive, haddressed, decide_eq_true_eq]
  rfl

theorem Node.receive_packet {p : Packet} (hp : Packet.ofWindow all = some p) : n.receive true all lane =
    if lane.getD 7 0 = 0xC1 then laneStep n lane
    else if n.lane.inbound.length < 4 then
      laneStep (n.copyPacket p) (if byteAt all 1 = n.mgmt.address then lane.take 7 ++ [0xC1] else lane)
    else if byteAt all 1 = n.mgmt.address then n.refuse lane else laneStep n lane := by
  simp only [Node.receive, haddressed, hp, Delivery.ofByte_copied, decide_eq_true_eq]
  rfl

end Receive

/-- Settles O31: the head by its kind, and the end of a window by whether it is whole, its packet, and the room for it. -/
theorem takeCommandRunsTheHead : Obligations.TakeCommandRunsTheHead := by
  constructor
  case left =>
    intro p rest s hinbound htakes m
    have popped : s.node.popInbound = m := Node.popInbound_eq hinbound
    refine ⟨fun i hi => ?_, fun hlow hkind => ?_⟩
    · rw [exec_command (commandOf_spells hi).2, onNode, ← popped, ← Node.takeHead_command hinbound htakes hi]
      rfl
    · rw [← popped, ← Node.takeHead_discards hinbound htakes hlow hkind]
      rfl
  case right =>
  intro n f lane hf hjob hnext window dest alone addressed ends refused
  have received : n.laneFrame (8 * f.window + 7) lane = (n.setFollow none).receive f.whole window lane := by
    rw [Node.laneFrame_ends hf hnext, Node.laneEnd, hjob]
  have named : (n.setFollow none).addressed dest = true ↔ addressed := Node.addressed_iff _ _
  refine ⟨fun hother => ?_, fun haddr hshared hbroken => ?_, fun halone hbroken => ?_, fun hnone hwhole => ?_,
    fun p haddr hwhole hp => ?_⟩
  · exact received.trans (Node.receive_other _ (mt named.1 hother) _)
  · rw [hbroken, Node.receive_broken _ (named.2 haddr)] at received
    exact received.trans (if_neg hshared)
  · rw [hbroken, Node.receive_broken _ (named.2 (.inl halone))] at received
    exact received.trans (if_pos halone)
  · rw [hwhole, Node.receive_unreadable _ hnone] at received
    exact received
  · rw [hwhole, Node.receive_packet _ (named.2 haddr) hp] at received
    refine ⟨fun hcopied => received.trans (if_pos hcopied), fun hnew hroom bytes hmine hshared => ?_, fun hnew hfull => ?_⟩
    · have written : (if alone then lane.take 7 ++ [0xC1] else lane) = bytes := by
        split
        · exact (hmine ‹_›).symm
        · exact (hshared ‹_›).symm
      exact received.trans ((if_neg hnew).trans ((if_pos hroom).trans (congrArg (laneStep _) written)))
    · have rejected := received.trans ((if_neg hnew).trans (if_neg (Nat.not_lt.2 hfull)))
      exact ⟨fun halone => rejected.trans (if_pos halone), fun hshared => rejected.trans (if_neg hshared)⟩

end Sys2Proof.Machine
end

section
/-! PROOF. The resets: each brings the part to frame time 0 of its start-up (O32). -/

namespace Sys2Proof.Machine

/-! ## The signal sector at a reset (R174) -/

/-- The contents in force after a start-up load: the image's when it is taken, and else the built-in ones. -/
def Node.sectorLoaded (n : Node) : SignalSector :=
  if imageTaken n.signalImage 0x51 then SignalSector.ofBytes n.signalImage else .builtIn

theorem Node.sectorLoaded_classes (n : Node) : n.sectorLoaded.classes.length = 3 := by
  unfold Node.sectorLoaded
  split <;> rfl

/-- The sector image is read from flash. -/
theorem Node.signalImage_of_flash {m n : Node} (h : m.library.flash = n.library.flash) : m.signalImage = n.signalImage := by
  simp only [Node.signalImage, Node.flash, h]

/-- The start-up load puts a sector's contents in force, the classes from class 5 on. -/
theorem Node.loadSignalSector_eq (n : Node) : n.loadSignalSector = { n with
    mixer := { n.mixer with
      classes := n.mixer.classes.mapIdx fun c r => if c < 5 then r else n.sectorLoaded.classes.getD (c - 5) r }
    alarm := { n.alarm with
      signals := n.sectorLoaded.signals, codeMap := n.sectorLoaded.codeMap, contacts := n.sectorLoaded.contacts
      authority := n.sectorLoaded.authority }
    library := { n.library with signalTaken := imageTaken n.signalImage 0x51 } } := rfl

/-- Three records in force over the default classes. -/
theorem defaultClasses_withHigh {cs : List ClassRecord} (h : cs.length = 3) :
    defaultClasses.mapIdx (fun c r => if c < 5 then r else cs.getD (c - 5) r) = defaultClasses.take 5 ++ cs := by
  obtain ⟨c5, c6, c7, rfl⟩ := List.length_eq_three.1 h
  rfl

/-! ## Frame time 0 (R178, R195, R196) -/

/-- Frame time 0 of a start-up on the flash and the free values of `m`. -/
def Node.frameZero (m : Node) (cause : ResetCause) (held : Bool) (pins : Pins) (east west : Option Frame) : Node :=
  { Node.reset with
    ring := { Ring.reset with
      role := pins.fmstr && decide (1 ≤ pins.address ∧ pins.address ≤ 239)
      txEast := { Tx.reset with out := east }, txWest := { Tx.reset with out := west } }
    mixer := { Mixer.reset with classes := Mixer.reset.classes.take 5 ++ m.sectorLoaded.classes }
    alarm := { Alarm.reset with
      signals := m.sectorLoaded.signals, codeMap := m.sectorLoaded.codeMap, contacts := m.sectorLoaded.contacts
      authority := m.sectorLoaded.authority }
    library := { Library.reset with flash := m.library.flash, signalTaken := imageTaken m.signalImage 0x51 }
    mgmt := { Mgmt.reset with cause := cause, held := held, address := pins.address, fmstr := pins.fmstr }
    pins := pins
    freeCount := m.freeCount }

section Reset

variable (n : Node) (cause : ResetCause) (held : Bool) (pins : Pins)

/-- Frame time 0 reads of a part its flash and its free values alone. -/
theorem Node.frameZero_eq {m n : Node} (hflash : m.library.flash = n.library.flash) (hfree : m.freeCount = n.freeCount)
    (east west : Option Frame) : m.frameZero cause held pins east west = n.frameZero cause held pins east west := by
  simp only [Node.frameZero, Node.sectorLoaded, Node.signalImage_of_flash hflash, hflash, hfree]

/-- What a reset puts in place before the signal sector is loaded. -/
def Node.unloaded : Node :=
  { Node.reset with
    ring := { Ring.reset with role := pins.fmstr && isAddress pins.address }
    library := { Library.reset with flash := n.library.flash }
    mgmt := { Mgmt.reset with address := pins.address, fmstr := pins.fmstr, cause := cause, held := held }
    pins := pins
    freeCount := n.freeCount }

theorem Node.resetWith_unloaded : n.resetWith cause pins held = (n.abandonHead.unloaded cause held pins).loadSignalSector := rfl

/-- A reset keeps the flash that it leaves of an abandoned phase, and reads its straps and that flash. -/
theorem Node.resetWith_eq : n.resetWith cause pins held = n.abandonHead.frameZero cause held pins none none := by
  rw [Node.resetWith_unloaded]
  generalize n.abandonHead = kept
  have image : (kept.unloaded cause held pins).signalImage = kept.signalImage := Node.signalImage_of_flash rfl
  have sector : (kept.unloaded cause held pins).sectorLoaded = kept.sectorLoaded := by
    simp only [Node.sectorLoaded, image]
  have role : isAddress pins.address = decide (1 ≤ pins.address ∧ pins.address ≤ 239) := by
    rw [isAddress, Bool.decide_and]
  have classes := defaultClasses_withHigh kept.sectorLoaded_classes
  rw [Node.loadSignalSector_eq, image, sector, Node.frameZero, ← role]
  generalize kept.sectorLoaded = loaded at classes
  generalize imageTaken kept.signalImage 0x51 = taken
  rw [show Mixer.reset.classes = defaultClasses from rfl, ← classes]
  rfl

/-- A part after a reset is at frame time 0 of a start-up on its own flash. -/
theorem Node.resetWith_frameZero : n.resetWith cause pins held =
    (n.resetWith cause pins held).frameZero cause held pins none none :=
  (n.resetWith_eq cause held pins).trans
    (Node.frameZero_eq cause held pins (m := n.abandonHead) (n := n.resetWith cause pins held) rfl rfl none none)

/-- The frames of the links are put on frame time 0. -/
theorem Node.restartReset_frameZero : n.restartReset.withLinks n =
    (n.restartReset.withLinks n).frameZero .command false n.pins n.ring.txEast.out n.ring.txWest.out :=
  (congrArg (fun m => m.withLinks n) (n.resetWith_frameZero .command false n.pins)).trans
    (Node.frameZero_eq .command false n.pins (m := n.restartReset) (n := n.restartReset.withLinks n) rfl rfl _ _)

/-- A reset leaves the flash alone when no phase was running at the head of the queue. -/
theorem Node.resetWith_flash (h : ∀ op ∈ n.library.ops.head?, op.phase = .waiting) :
    (n.resetWith cause pins held).library.flash = n.library.flash := by
  show n.abandonHead.library.flash = n.library.flash
  unfold Node.abandonHead
  split
  · rfl
  · rename_i op _ hops
    have waits : op.phase = .waiting := h op (by rw [hops]; rfl)
    rw [Node.abandonPhase, waits]

end Reset

theorem exec_resetNRelease {s : State} (h : s.node.mgmt.held = true) :
    exec .resetNRelease s = .next { s with node := s.node.resetWith s.node.mgmt.cause s.node.pins false } := by
  have released : s.node.release = s.node.resetWith s.node.mgmt.cause s.node.pins false := if_pos h
  exact congrArg (fun m => Host.Outcome.next { s with node := m }) released

theorem exec_restartTimeout {s : State} {k : Nat} (h : s.node.mgmt.restart = some k) (hk : 4799 ≤ k) :
    exec .restartTimeout s = .next { s with node := s.node.restartReset.withLinks s.node } := by
  have due : s.node.restartDue = true := by simp [Node.restartDue, h, hk]
  have restarted : s.node.restartNow = s.node.restartReset.withLinks s.node := if_pos due
  exact congrArg (fun m => Host.Outcome.next { s with node := m }) restarted

/-- Settles O32: every reset is the one reset with its own cause and pins, and each table of reset values repeats one record. -/
theorem resetsStartTheNode : Obligations.ResetsStartTheNode := by
  intro pins s n resets
  have started (cause : ResetCause) (held : Bool) (pins : Pins) {i : Instr}
      (h : exec i s = .next { s with node := n.resetWith cause pins held }) : resets i cause held pins none none :=
    ⟨_, h, n.resetWith_frameZero cause held pins, n.resetWith_flash cause held pins⟩
  refine ⟨started _ _ _ rfl, started _ _ _ rfl, fun hheld => started _ _ _ (exec_resetNRelease hheld), fun k hk hdue => ?restart,
    fun z _ => ?zones, rfl, rfl, rfl, rfl, rfl, rfl, rfl, rfl, rfl, rfl, rfl, rfl, rfl, rfl, rfl, rfl, fun a => ?channels, rfl⟩
  case restart =>
    exact ⟨_, exec_restartTimeout hk hdue, n.restartReset_frameZero, n.resetWith_flash .command false n.pins⟩
  case zones =>
    have zone : Node.reset.zone z = .reset := getD_replicate_default z 16 _
    rw [Node.stack, zone]
    exact ⟨rfl, rfl, rfl⟩
  case channels =>
    have channel : Node.reset.channel a = .reset := getD_replicate_default a 2 _
    rw [channel]
    exact ⟨rfl, rfl⟩

end Sys2Proof.Machine
end

section
/-! PROOF. A packet in a window reads back (O56). -/

namespace Sys2Proof.Machine

/-! ## Bytes (R197) -/

theorem byte_toNat {n : Nat} (h : n ≤ 255) : (byte n).toNat = n := by
  rw [byte, BitVec.toNat_ofNat, Nat.mod_eq_of_lt (by omega)]

/-- A number that fits a byte is read where its byte stands. -/
theorem byteAt_of_byte {bs : List Byte} {i n : Nat} (hn : n ≤ 255) (h : bs.getD i 0 = byte n) : byteAt bs i = n := by
  rw [byteAt, h, byte_toNat hn]

/-- Two bytes spell the number that they were made from. -/
theorem natOf_bytesOf_two (x : BitVec 16) : natOf (bytesOf 2 x.toNat) = x.toNat := by
  have hx := x.isLt
  simp only [natOf, bytesOf, byte, List.foldl_cons, List.foldl_nil, BitVec.toNat_ofNat]
  omega

/-- The bytes between what stands before them and what stands after them. -/
theorem slice_middle (before middle after : List Byte) {i n : Nat} (hi : before.length = i) (hn : middle.length = n) :
    slice (before ++ (middle ++ after)) i n = middle := by
  rw [slice, List.drop_left' hi, List.take_left' hn]

/-! ## The bytes of a packet's window (R180, R199) -/

namespace Packet

variable {p : Packet}

/-- What follows the check in a window: zeros, and no verdict. -/
def windowEnd (p : Packet) : List Byte :=
  List.replicate (62 - (p.checked ++ bytesOf 2 (crc16 p.checked).toNat).length) 0 ++ [Delivery.none.byte]

theorem window_eq (p : Packet) :
    p.window = [Occupancy.full.byte] ++ (p.checked ++ (bytesOf 2 (crc16 p.checked).toNat ++ p.windowEnd)) := by
  simp [window, windowEnd]

variable (h : p.payload.length ≤ 55)
include h

/-- A payload of at most 55 bytes goes into the packet whole. -/
theorem checked_eq : p.checked =
    [byte p.dest, byte p.src, byte p.kind, byte p.tag, byte p.payload.length] ++ p.payload := by
  rw [checked, wirePayload, if_pos h]

theorem checked_length : p.checked.length = 5 + p.payload.length := by
  rw [checked_eq h, List.length_append]
  rfl

theorem window_length : p.window.length = 64 := by
  simp only [window, List.length_append, List.length_replicate, bytesOf, List.length_cons,
    List.length_nil, checked_length h]
  omega

/-- The header and the payload, from the front of the window. -/
theorem window_header : ∃ rest, p.window =
    [Occupancy.full.byte, byte p.dest, byte p.src, byte p.kind, byte p.tag, byte p.payload.length] ++ (p.payload ++ rest) :=
  ⟨_, by rw [window_eq, checked_eq h]; rfl⟩

/-- The bytes over which the check runs, from the window. -/
theorem window_checked : slice p.window 1 (5 + p.payload.length) = p.checked := by
  rw [window_eq]
  exact slice_middle _ _ _ rfl (checked_length h)

/-- The check, from the window. -/
theorem window_check : slice p.window (6 + p.payload.length) 2 = bytesOf 2 (crc16 p.checked).toNat := by
  rw [window_eq, ← List.append_assoc]
  refine slice_middle _ _ _ ?_ rfl
  rw [List.length_append, checked_length h, List.length_singleton]
  omega

/-- A window whose packet fits the widths of its fields carries that packet. -/
theorem ofWindow_window (hdest : p.dest ≤ 255) (hsrc : p.src ≤ 255) (hkind : p.kind ≤ 255) (htag : p.tag ≤ 255) :
    ofWindow p.window = some p := by
  obtain ⟨rest, header⟩ := window_header h
  have count : byteAt p.window 5 = p.payload.length := byteAt_of_byte (h.trans (by decide)) (by rw [header]; rfl)
  have good : natOf (slice p.window (6 + p.payload.length) 2) = (crc16 (slice p.window 1 (5 + p.payload.length))).toNat := by
    rw [window_check h, window_checked h, natOf_bytesOf_two]
  have payload : slice p.window 6 p.payload.length = p.payload := by
    rw [header]
    exact slice_middle _ _ _ rfl rfl
  have dest : byteAt p.window 1 = p.dest := byteAt_of_byte hdest (by rw [header]; rfl)
  have src : byteAt p.window 2 = p.src := byteAt_of_byte hsrc (by rw [header]; rfl)
  have kind : byteAt p.window 3 = p.kind := byteAt_of_byte hkind (by rw [header]; rfl)
  have tag : byteAt p.window 4 = p.tag := byteAt_of_byte htag (by rw [header]; rfl)
  simp only [ofWindow, count, if_pos (And.intro h good), dest, src, kind, tag, payload]

end Packet

/-- Settles O56: each field is found at its place in the window, and the check holds for the bytes it was made from. -/
theorem packetsReadBack : Obligations.PacketsReadBack := by
  intro p hdest hsrc hkind htag hlen
  exact ⟨Packet.window_length hlen, rfl, Packet.ofWindow_window hlen hdest hsrc hkind htag⟩

end Sys2Proof.Machine
end

section
/-! PROOF. A step of the machine as a whole: the front of the queue (O1), and the next state that every row answers (O2). -/

namespace Sys2Proof.Machine

/-! ## The step (log 6) -/

/-- A step on a queue that is not empty is its front row, carried out on the queue's rest. -/
theorem step_cons (c : Instr) (s : State) : step { s with pending := c :: s.pending } = exec c s := rfl

/-- A step on an empty queue changes nothing (log 6). -/
theorem step_nil {s : State} (h : s.pending = []) : step s = .next s := by
  unfold step
  rw [h]

/-- Settles O1: the two branches of a step, by whether the queue is empty. -/
theorem stepTakesTheFront : Obligations.StepTakesTheFront := ⟨step_cons, fun _ => step_nil⟩

/-! ## The rows (log 1, log 2) -/

/-- The row of a command answers the part after its sender's command is taken, and the queue as it was. -/
theorem exec_command_next {c : Instr} {who : Req} (h : senderOf c = some who) (s : State) :
    exec c s = .next { s with node := s.node.taken who fun m => m.manage c } := exec_command h s

/-- The row of an event is work on the part by its definition, due or not. -/
theorem exec_event_next {c : Instr} (h : senderOf c = none) (s : State) : ∃ n, exec c s = .next { s with node := n } := by
  cases c <;> cases h
  all_goals exact ⟨_, rfl⟩

/-- Settles O2: a row is that of a command, which names its sender, or that of an event, which names none. -/
theorem everyCommandAnswersNext : Obligations.EveryCommandAnswersNext := by
  intro c s
  cases hsender : senderOf c with
  | some who => exact ⟨_, exec_command_next hsender s⟩
  | none => exact exec_event_next hsender s

end Sys2Proof.Machine
end
